-- ==== Sys2Proof/Word.lean ====
section
/-! DEFINITION. The word types of the VL8160: bytes, 32-bit registers (R4) and 64-bit fields (R5). -/

namespace Sys2Proof

/-- One byte of a memory, a descriptor or a message. -/
abbrev Byte := BitVec 8
/-- A 32-bit register or tally (R4, R187). -/
abbrev Word := BitVec 32
/-- A 64-bit field, hart register or Polestar value (R497). -/
abbrev DWord := BitVec 64

/-- The arithmetic that saturates a 32-bit counter at 0xFFFF_FFFF. -/
def Word.incSat (w : Word) (n : Nat) : Word := BitVec.ofNat 32 (min (w.toNat + n) 0xFFFFFFFF)

end Sys2Proof
end

