-- ==== Sys2Proof/Machine/Mem.lean ====
section
/-! DEFINITION. Sparse plain data: the byte memories as sorted lists of cells in one canonical form, and sparse maps
from indices to records. -/

namespace Sys2Proof.Machine

/-- A byte memory: the cells that differ from what an unlisted address reads as, by rising address. -/
abbrev Memory := List Host.Cell

namespace Memory

/-- One byte; `d` is what an unlisted address reads as. DESIGN CHOICE: log entry 6. -/
def get (d : Byte) : Memory → Nat → Byte
  | [], _ => d
  | (k, v) :: t, a => if a = k then v else get d t a

/-- One byte written, the canonical form kept. -/
def put (d : Byte) : Memory → Nat → Byte → Memory
  | [], a, b => if b = d then [] else [(a, b)]
  | (k, v) :: t, a, b =>
    if a < k then (if b = d then (k, v) :: t else (a, b) :: (k, v) :: t)
    else if a = k then (if b = d then t else (a, b) :: t)
    else (k, v) :: put d t a b

/-- Every address of the list lies above `lo`. -/
def above (lo : Nat) : Memory → Bool
  | [] => true
  | (k, _) :: _ => decide (lo < k)

/-- The canonical form: addresses strictly rising, no cell equal to the unlisted value. DESIGN CHOICE: log entry 9. -/
def wf (d : Byte) : Memory → Bool
  | [] => true
  | (k, v) :: t => decide (v ≠ d) && above k t && wf d t

/-- `n` bytes from an address upward. -/
def read (d : Byte) (m : Memory) (a : Nat) : Nat → List Byte
  | 0 => []
  | n + 1 => get d m a :: read d m (a + 1) n

/-- A list of bytes written from an address upward. -/
def write (d : Byte) (m : Memory) (a : Nat) : List Byte → Memory
  | [] => m
  | b :: t => write d (put d m a b) (a + 1) t

end Memory

/-- A sparse map from indices to records, by rising index. -/
abbrev SMap (α : Type) := List (Nat × α)

namespace SMap

/-- The record at an index. -/
def find {α : Type} : SMap α → Nat → Option α
  | [], _ => none
  | (k, v) :: t, a => if a = k then some v else find t a

/-- The record at an index, `d` where the map lists none. DESIGN CHOICE: log entry 6. -/
def get {α : Type} (d : α) (m : SMap α) (a : Nat) : α := (find m a).getD d

/-- The map with the record at an index replaced. -/
def set {α : Type} : SMap α → Nat → α → SMap α
  | [], a, v => [(a, v)]
  | (k, w) :: t, a, v =>
    if a < k then (a, v) :: (k, w) :: t
    else if a = k then (a, v) :: t
    else (k, w) :: set t a v

/-- The map without any record at an index. -/
def del {α : Type} (m : SMap α) (a : Nat) : SMap α := m.filter fun p => p.1 ≠ a

/-- The indices that the map lists. -/
def keys {α : Type} (m : SMap α) : List Nat := m.map Prod.fst

/-- Every record mapped. -/
def mapVals {α β : Type} (f : Nat → α → β) (m : SMap α) : SMap β := m.map fun p => (p.1, f p.1 p.2)

end SMap

/-- A little-endian number from bytes (R5). -/
def leNat : List Byte → Nat
  | [] => 0
  | b :: t => b.toNat + 256 * leNat t

/-- A number as `n` little-endian bytes (R5). -/
def leBytes : Nat → Nat → List Byte
  | 0, _ => []
  | n + 1, v => BitVec.ofNat 8 v :: leBytes n (v / 256)

/-- `n` bytes of a list from an offset, as a little-endian number; bytes beyond the list read 0. -/
def fieldAt (l : List Byte) (off n : Nat) : Nat := leNat ((l.drop off).take n)

/-- Is every byte of a range zero. -/
def zeroAt (l : List Byte) (off n : Nat) : Bool := ((l.drop off).take n).all (· = 0)

/-- A list with the element at an index replaced. -/
def setAt {α : Type} (l : List α) (i : Nat) (v : α) : List α := l.set i v

/-- ⌈a / b⌉. -/
def ceilDiv (a b : Nat) : Nat := (a + b - 1) / b

end Sys2Proof.Machine
end

