-- ==== Sys2Proof/Parts.lean ====
section
/-! DEFINITION. The types of the operands of the commands: the status codes, the indices of the block's units, the plan,
the messages and what other modules report. -/

namespace Sys2Proof

/-- The shared status codes of R447. -/
inductive Status where
  | ok | zero | cancelled | alreadyDone
  | poison | faultHalt | timeout | gleaned | dropped | fenced | lagging
  | weightLost | versionRetired | adapterMissing | unavailable
  | badDescriptor | outOfRange | noResource | shapeUnsupported
  | sigFail | bindingFail | rollback | internal
  deriving DecidableEq, Repr

/-- A hart, by mhartid 4 × (8c + k) + j (R138); the supervisor's harts are not job harts. -/
abbrev Hart := Fin 512
/-- A core, by die-wide index 8c + k (R12). -/
abbrev CoreIx := Fin 128
/-- A cluster, and the stack above it (R11). -/
abbrev ClusterIx := Fin 16
/-- A stream unit of a core (R10), a group of an engine (R40), a slot of a unit. -/
abbrev UnitIx := Fin 4
/-- A DRAM channel, by die-wide number (R11). -/
abbrev ChannelIx := Fin 256
/-- A furrow lane group (R449) or an Ethernet port (R457). -/
abbrev PortIx := Fin 8
/-- A module ID (R21). -/
abbrev ModuleId := BitVec 12

/-- Which completion ring a HEAD register belongs to (R56). -/
inductive EngineSel where
  | mxe (k : CoreIx)
  | vxe (k : CoreIx)
  | str (k : CoreIx) (u : UnitIx)
  deriving DecidableEq, Repr

/-- The hart AMO functions of the RV64 A extension (R140). -/
inductive AmoFn where
  | swap | add | xor | and | or | min | max | minu | maxu
  deriving DecidableEq, Repr

/-- The hart memory operations of R140: `n` is the width's exponent (0 to 3 for 1, 2, 4, 8 bytes). -/
inductive MemOp where
  | load (n : Fin 4) (signed : Bool)
  | store (n : Fin 4)
  | lr (wide : Bool)
  | sc (wide : Bool)
  | amo (fn : AmoFn) (wide : Bool)
  deriving DecidableEq, Repr

/-- The three AMOs that reach a shared cache (R195). -/
inductive ScAmo where
  | add | min | max
  deriving DecidableEq, Repr

/-- A tally operation that arrives from another module (R191). -/
inductive RemoteOp where
  | add | set | wait | poll
  deriving DecidableEq, Repr

/-- R142: what a word of the Kykecy extension holds beside the opcode and the funct3 that its row names: funct7 and the
numbers of rs2, rs1 and rd. -/
structure Xkvl where
  f7 : BitVec 7
  r2 : Fin 32
  r1 : Fin 32
  rd : Fin 32
  deriving DecidableEq, Repr

/-- Who polls a tally for want of a watch entry (R193): a hart of the module, or the wait of another module's hart. -/
inductive Poller where
  | hart (h : Hart)
  | peer (src : ModuleId) (tag : Nat)
  deriving DecidableEq, Repr

/-- A PMP entry of a hart (R139, R141): the addresses lo to hi − 1 and the rights there. The spec gives no layout of the
entries. DESIGN CHOICE: log entry 27. -/
structure PmpEntry where
  lo : Nat
  hi : Nat
  r : Bool
  w : Bool
  x : Bool
  deriving DecidableEq, Repr

/-- The two shadow groups of R482. -/
inductive ShadowGroup where
  | stagger (c : ClusterIx)
  | coll
  deriving DecidableEq, Repr

/-- Erroneous 8-bit symbols of a DRAM line (R204): each one's place among the 67, the data bytes in ascending address order
and then the check symbols, and the bits that are wrong. -/
abbrev SymErrs := List (Nat × Byte)

/-- The causes for which a channel is fenced while running (R218). -/
inductive FenceChannelCause where
  | retries | rows
  deriving DecidableEq, Repr

/-- The header of a service message (R431), with the body that follows it. The TYPE is the row's. -/
structure Msg where
  conn : Nat
  version : Byte
  flags : Byte
  status : Byte
  detail : Byte
  rsvd5 : Byte
  bodyLen : BitVec 16
  requestId : DWord
  time : DWord
  msgSeq : Word
  rsvd28 : Word
  body : List Byte
  deriving DecidableEq, Repr

/-- What the RDMA READ of a bulk reference returns (R427): the client's bytes, or none on an RDMA error. -/
abbrev Bulk := Option (List Byte)

/-- What the home has gathered of a slot's step when it runs the slot's SAMPLE (R258, R272). -/
structure SampleRun where
  /-- the FP32 logits, none for a candidate that the mask leaves out; and whether an active one is poisoned (R132) -/
  logits : List (Option Word)
  poisoned : Bool
  /-- a page copy, a score tile or the SAMPLE met poison from a page of the slot's keys and values, on any module, and the
  compacted 64 KiB pages of this module that hold such lines (R255) -/
  kvPoison : Bool
  kvPages : List Nat
  /-- the page indices whose key bitmap line read poisoned (R237) -/
  masks : List Nat
  /-- the empty query rows that the control cores have counted for the slot since its last token (R129, R248) -/
  emptyRows : Nat
  deriving DecidableEq, Repr

/-- What has reached this module over the furrow by a step boundary, or by the end of a step (R259 to R261, R282). Slot
records are 128 bytes in the layout of R261. -/
structure SheafNews where
  /-- to the scheduler: requests that wait at other homes, as slot records in STATE FREE, in their order of arrival -/
  queued : List (List Byte) := []
  /-- slot records that the scheduler and other homes have sent: slot index and bytes -/
  records : List (Nat × List Byte) := []
  /-- to a module that is not the scheduler: the step's number, and each slot of its step list with the positions placed -/
  step : Nat := 0
  rows : List (Nat × Nat) := []
  /-- adapter images that other homes have published (instance, image), and the versions that every other module of the
  instance now holds (instance, ADAPTER_ID, VERSION) -/
  images : List (Nat × List Byte) := []
  present : List (Nat × Nat × Word) := []
  /-- to the turn coordinator: rewarded ended sequences of other homes (instance, how many); to another module: the
  instances for which the coordinator has decided LEARNING (R309, R310) -/
  rewarded : List (Nat × Nat) := []
  learning : List Nat := []
  deriving DecidableEq, Repr

/-- How a CANCEL, a REWARD, a LEARN, a SECURE or a HANDOVER reaches this module (R276, R434, R310, R396, R400): from a
client on a connection, with the status and detail that the other module answers where the request's home, or the module
to hand over, is another module; or forwarded here by the module that received it. -/
inductive Via where
  | client (answer : Option (Status × Byte))
  | module (src : ModuleId)
  deriving DecidableEq, Repr

/-- A poisoned adapter version (R286): its ID and version, and whether another module still holds a clean copy. -/
structure AdapterPoison where
  id : Nat
  version : Word
  clean : Bool
  deriving DecidableEq, Repr

/-- One module's memory report at t0 (R315), in 2 MiB pages. -/
structure RoomReport where
  module : ModuleId
  freePages : Nat
  needPages : Nat
  deriving DecidableEq, Repr

/-- A contribution of a member whose agent lies on another module, as it reaches a reduction point (R346, R348):
its join descriptor, its data, and the lines of it that are poisoned. -/
structure RemoteJoin where
  member : Nat
  desc : List Byte
  data : List Byte
  poisonedLines : List Nat
  /-- the routing table of a DISPATCH, or the origin tags of the rows of a COMBINE -/
  table : List Byte
  deriving DecidableEq, Repr

/-! ### The parsed plan (R441; no chapter lays out the plan image's bytes) -/

/-- A serving pool with the defaults of R262: TURN is DRAIN unless `cutover`; a CHUNK left out is none. -/
structure PoolPlan where
  id : Nat
  inst : Nat
  cutover : Bool := false
  slots : Nat
  stepTokens : Nat
  chunk : Option Nat := none
  queue : Nat := 4096
  admitMs : Nat := 2000
  splitP : Nat := 1
  splitAt : Nat := 1048576
  /-- the sheaf positions of the members over which a sequence is split (R250), in member order; positions 0 to
  SPLIT_P − 1 where the plan names none -/
  splitOver : List Nat := []
  deriving DecidableEq, Repr

/-- A trained or served tensor of an instance (R292, R311, R337, R361). `layer` is none for a tensor in no layer. -/
structure TensorPlan where
  id : Nat
  fmt : Nat
  shape : List Nat
  layer : Option Nat
  trained : Bool
  genFmt : Nat
  rule : Nat
  cutDim : Nat
  deriving DecidableEq, Repr

/-- The mapping record (R336). `capFactor` is FP32. -/
structure MappingPlan where
  sheaves : Nat
  stages : Nat
  layers : Nat
  experts : Nat
  expertSpan : Nat
  topK : Nat
  capFactor : Word
  prefetch : Nat
  tervar : Bool
  firstMs : Nat
  deriving DecidableEq, Repr

/-- A model instance of the plan: its mapping, attention layer records (R231), cycle record (R309, none when only
served), tensors, vocabulary, width and layers (R279). -/
structure InstancePlan where
  id : Nat
  mapping : MappingPlan
  firstSheaf : Nat
  attention : List (List Byte)
  cycle : Option (List Byte)
  tensors : List TensorPlan
  vocab : Nat
  width : Nat
  /-- the tensor of the instance that holds its steering basis (R279) -/
  basis : Option Nat := none
  deriving DecidableEq, Repr

/-- The thresher record (R366). -/
structure ThresherPlan where
  shadowMib : Nat
  gradMib : Nat
  jrnlMib : Nat
  jrnlWaitMs : Nat
  updMask : BitVec 128
  rsv : Nat
  ret : Nat
  deriving DecidableEq, Repr

/-- The survival record (R392). `checkTol` is FP32. -/
structure SurvivalPlan where
  secureAt : Nat
  preemptAt : Nat
  checkTol : Word
  takeoverS : Nat
  nvmeCopy : Nat
  deriving DecidableEq, Repr

/-- A member of a collective: the module and the agent core that joins on its behalf (R344). -/
structure MemberPlan where
  module : ModuleId
  agent : CoreIx
  /-- the nested constellations that hold it, outermost first, each by its index (R84); none for a direct member -/
  nest : List Nat := []
  deriving DecidableEq, Repr

/-- A collective of the plan (R344). -/
structure CollPlan where
  id : Nat
  inst : Nat
  members : List MemberPlan
  step : Bool
  deadlineMs : Nat
  scope : Nat
  /-- the addressable shared-cache cluster of this module that is a reduction point, none when it holds none -/
  point : Option ClusterIx
  /-- the offset in that part at which the reduction point combines ARRIVAL data (R348); the spec gives no place.
  DESIGN CHOICE: log entry 123. -/
  pointOff : Nat := 0
  homes : List (Nat × Nat × Nat)
  deriving DecidableEq, Repr

/-- A constellation of the plan: the number of its direct members and its ordering scope (R15, R18). -/
structure ConsPlan where
  id : Nat
  members : Nat
  scope : Nat
  deriving DecidableEq, Repr

/-- A plan, as resident firmware reads it from the plan image (R441). -/
structure Plan where
  modules : List ModuleId
  gen1Peer : Bool
  cores : BitVec 128
  clusters : BitVec 16
  contexts : List (ClusterIx × Fin 8)
  jobSeed : DWord
  kvBase : Nat
  kvPages : Nat
  kvPageLog : Nat
  /-- the page counts of the KV pools of the sheaf's positions, where they differ from this module's (R230, R265) -/
  kvPagesAt : List Nat := []
  /-- the free 64 KiB frames that resident firmware keeps for demand paging, and the page-fingerprint table of the pages
  that it has placed in a tier, by the leaf entry of R300 (R301, R302) -/
  frames : List Nat
  tierPages : List (DWord × DWord)
  /-- the tallies allocated to the job (R187, R530), die-wide, and the PMP entries by which resident firmware keeps the
  job's kernels to its regions (R141) -/
  tallies : List (BitVec 14) := []
  /-- the 4 KiB pages that hold translation tables, each with the page of its second copy (R211) -/
  tableCopies : List (Nat × Nat) := []
  pmp : List PmpEntry := []
  constellations : List ConsPlan
  pools : List PoolPlan
  instances : List InstancePlan
  thresher : Option ThresherPlan
  rules : List (List Byte)
  schedules : List (List (Nat × Word))
  survival : Option SurvivalPlan
  collectives : List CollPlan
  ckptSteps : Nat
  deriving DecidableEq, Repr

/-- What a PCIe link finds at the start (R460): the generation and width that both ends reach, and whether it ends at
one NVMe controller that can be used. -/
structure PcieLink where
  gen : Nat
  width : Nat
  drive : Bool
  deriving DecidableEq, Repr

/-- What the environment supplies to a start (R476): whether the input lies inside its range, which units fail their
self-tests and which channels fail interface training, which flash can be read, what the PCIe links find, two a root
port, and the milliseconds from t0 to SAFE where the start ends there. -/
structure StartEnv where
  inRange : Bool
  supPass : BitVec 4
  clockOk : Bool
  flashA : Bool
  flashB : Bool
  failCores : BitVec 128
  failClusters : BitVec 16
  failEth : BitVec 8
  failPcie : BitVec 4
  failFurrow : BitVec 8
  failChannels : BitVec 256
  pcie : List PcieLink
  ms : Nat
  deriving DecidableEq, Repr

/-- The numeric sensors of R463. -/
inductive Sensor where
  | stackTemp (st : ClusterIx)
  | stackLevel (st : ClusterIx)
  | vin | iin | pin | risk | state
  deriving DecidableEq, Repr

/-- The PLDM requests that the spec gives an effect or an answer (R463, R478, R493). -/
inductive PldmReq where
  | getSensor (id : Sensor)
  | setTaiEffecter (sec : Word)
  | requestUpdate
  | cancelUpdate
  | activateFirmware
  | restart
  | base (cmd : Byte)
  deriving DecidableEq, Repr

/-- A furrow flit as it arrives (R452): `bytes` are its 512 bytes; `nak` is the SEQ that a link-control NAK names, whose
place in the flit no rule gives (R454). -/
structure Flit where
  bytes : List Byte
  nak : Option Nat
  deriving DecidableEq, Repr

/-- A gradient journal record (R383): the 64-byte header and the image, with what a second fetch returns. -/
structure JournalMsg where
  header : List Byte
  image : List Byte
  again : List Byte
  deriving DecidableEq, Repr

/-- What an owner reports of a converted tensor (R318): its scale, its fingerprint and those of its eight shards. -/
structure ShardInfo where
  scale : Word
  fp : DWord
  shardFps : List DWord
  deriving DecidableEq, Repr

/-- Causes for which an update stops before its flip (R386). -/
inductive RedoCause where
  | poisonedGradient | poisonedHalf | poisonedShadow | constellation | reset
  /-- a member's instruction ended with FAULT_HALT (R379) -/
  | memberFault (core : CoreIx)
  deriving DecidableEq, Repr

/-- The factors of one matrix under PRECOND: L, R and their inverse fourth roots, row by row. -/
structure Factors where
  l : List (List Word) := []
  r : List (List Word) := []
  pl : List (List Word) := []
  pr : List (List Word) := []
  deriving DecidableEq, Repr

/-- The sketch of one matrix under ELEM, or of a vector (its second moment in `row`). -/
structure Sketch where
  row : List Word := []
  col : List Word := []
  codes : List Nat := []
  deriving DecidableEq, Repr

/-- One half of a shard (R364): the FP32 master, the F12W momentum, the factors and the sketch of each matrix. -/
structure ShardHalf where
  master : List Word := []
  mom : List Nat := []
  factors : List Factors := []
  sketch : List Sketch := []
  deriving DecidableEq, Repr

/-- A copy of a shard's half in use with what its record says of it (R365, R393, R399): the secured state. -/
structure ShardCopy where
  epoch : Word
  step : DWord
  masterFp : DWord
  half : ShardHalf
  deriving DecidableEq, Repr

/-- A session of a fenced home, as the sheaf's slot records name it: its tenant, and its requests that were open there
(R410, R445). -/
structure FencedHome where
  session : DWord
  tenant : Nat
  requests : List DWord
  deriving DecidableEq, Repr

/-- A descriptor addressed to a constellation: of a core's matrix engine, vector engine or stream units (R14). -/
inductive ConsDesc where
  | tile (bytes : List Byte)
  | vector (bytes : List Byte)
  | stream (bytes : List Byte)
  deriving DecidableEq, Repr

end Sys2Proof
end

