-- ==== Sys2Proof/Machine/Job.lean ====
section
/-! DEFINITION. The state that a job gives the block and that moves with its position (R401): the thresher's shards and
journal, the instances with their turns and sample stores, the slots and queues of the pools, and the sessions of the
service. -/

namespace Sys2Proof.Machine

/-! ### Thresher (chapter 14) -/

/-- A reduced gradient (R368): its step, its format, its elements, and whether a line of it is poisoned. -/
structure Grad where
  step : Nat
  fmt : Nat
  elems : List Nat
  poison : Bool
  deriving DecidableEq, Repr

/-- A journal record that the owner has sent (R383, R385). -/
structure JrnlSent where
  step : Nat
  acked : Bool
  deriving DecidableEq, Repr

/-- An update in progress (R380): its step, when its journal record was sent, whether the wait is over, whether it holds
a shadow slot or was counted as waiting for one, the fingerprint of the new master once it stands in the shadow, and the
redos of this step. -/
structure Upd where
  step : Nat
  sentAt : Nat
  waitOver : Bool := false
  slot : Bool := false
  poolWait : Bool := false
  next : Option DWord := none
  redos : Nat := 0
  deriving DecidableEq, Repr

/-- A shard (R365). The half in use is half EPOCH mod 2; the other is written only by an update. -/
structure Shard where
  tensor : Nat
  rule : Nat
  mats : Nat
  rows : Nat
  cols : Nat
  lagging : Bool := false
  redo : Bool := false
  epoch : Word := 0
  step : DWord := 0xFFFFFFFFFFFFFFFF#64
  slots : List DWord := [0, 0]
  masterFp : DWord := 0
  halves : List ShardHalf
  /-- a poisoned line in the half in use (R381, R415) -/
  poison : Bool := false
  grads : List (Option Grad) := [none, none]
  sent : List JrnlSent := []
  upd : Option Upd := none
  /-- the step after the last one flipped or passed over (R389) -/
  settled : Nat := 0
  /-- what the buddy's secured copy holds, as its STEP plus 1 modulo 2^64 (R395), and the NVMe copy (R399) -/
  secured : Option Nat := none
  nvme : Option ShardCopy := none
  deriving DecidableEq, Repr

/-- A journal record that this module keeps for the module whose buddy it is (R384). -/
structure JrnlRec where
  owner : Nat
  tensor : Nat
  step : Nat
  header : List Byte
  image : List Byte
  deriving DecidableEq, Repr

/-- A secured copy that this module keeps for an owner (R393). -/
structure Secured where
  owner : Nat
  tensor : Nat
  copy : ShardCopy
  deriving DecidableEq, Repr

/-- An entry of the ownership assignment (R362, R363). -/
structure OwnerEnt where
  tensor : Nat
  owner : Nat
  rule : Nat
  params : Nat
  deriving DecidableEq, Repr

structure Thresher where
  owners : List OwnerEnt := []
  shards : List Shard := []
  journal : List JrnlRec := []
  secured : List Secured := []
  /-- windows of the update constellation taken, whether it is held, and the matrix shards done in this window (R377) -/
  windows : Nat := 0
  held : Bool := false
  windowDone : List Nat := []
  deriving DecidableEq, Repr

/-! ### Instances, turns and sample stores (chapters 11 and 12) -/

inductive Phase where
  | generation | learning | turning | unavailable
  deriving DecidableEq, Repr

/-- A tensor in a version table (R318): its scale, its fingerprint and those of its eight shards, and the step time of
its last matching check. -/
structure VerTensor where
  tensor : Nat
  scale : Word
  fp : DWord
  shardFps : List DWord
  checkedAt : Nat
  deriving DecidableEq, Repr

/-- A resident version (R312). -/
structure Version where
  num : Word
  tensors : List VerTensor
  deriving DecidableEq, Repr

/-- A turn in progress (R314 to R321). -/
structure Turn where
  t0 : Nat
  /-- ticks at t0, and ticks for which the clock stood still (R328) -/
  upAt : Nat
  stood : Nat
  forced : Bool
  retry : Bool
  /-- the table of the new version as far as it is known, the tensors whose shard for this position is verified -/
  table : List VerTensor
  have_ : List Nat
  lagging : Nat
  refetch : Nat
  bytes : Nat
  step : DWord
  deriving DecidableEq, Repr

/-- A sample record (R331), whether its read mark is set (R330), and its position in the store. -/
structure Sample where
  seq : Nat
  reqId : DWord
  time : Nat
  token : Word
  index : Nat
  logpFull : Word
  logpKept : Word
  policy : Word
  adapterVer : Word
  reward : Word
  adapterId : Nat
  tenant : Nat
  flags : Nat
  kept : Nat
  step : Word
  read : Bool
  deriving DecidableEq, Repr

/-- A held step of an instance (R284, R286): when the poison was reported, the pages still to be refilled, and the adapter
versions to be refilled from another module. -/
structure WeightHold where
  at_ : Nat
  pages : List Nat
  adapters : List (Nat × Word) := []
  deriving DecidableEq, Repr

/-- A publication that waits for its boundary (R312): its SET_ID and SET_VERSION, the table of its version, and each
tensor's ID, format, scale and image. -/
structure Published where
  setId : DWord
  setVer : Word
  table : List VerTensor
  images : List (Nat × Nat × Word × List Byte)
  deriving DecidableEq, Repr

/-- A model instance of the plan (R308 to R313). -/
structure Inst where
  phase : Phase := .generation
  /-- a phase that takes effect at the sheaf's next step boundary (R310) -/
  nextPhase : Option Phase := none
  /-- an abandoned turn with FORCED_MEMORY is to be run once more (R327) -/
  retry : Bool := false
  current : Option Version := none
  draining : Option Version := none
  /-- rewarded ended sequences, and steps settled since the learning phase began (R309, R310) -/
  rewarded : Nat := 0
  learnFrom : Nat := 0
  turn : Option Turn := none
  lastTurn : List Byte := List.replicate 64 0
  turns : Word := 0
  turnsForced : Word := 0
  turnsAbandoned : Word := 0
  lastUs : Word := 0
  /-- a commit that has arrived and waits for the sheaf's boundary: the new version, FORCED_MEMORY, its turn (R321) -/
  commit : Option Version := none
  commitForced : Bool := false
  commitTurn : Option Turn := none
  commitAt : Nat := 0
  /-- publications that are held, oldest first (R312) -/
  published : List Published := []
  hold : Option WeightHold := none
  /-- the steering basis (R279): its format, and the image of 32 vectors of the model width for each layer -/
  basis : Option (Nat × List Byte) := none
  store : List Sample := []
  nextSeq : Nat := 0
  overwritten : Word := 0
  rewards : Word := 0
  mixed : Word := 0
  unread : Word := 0
  deriving DecidableEq, Repr

/-! ### Serving (chapter 10) -/

/-- What a GENERATE asks for (R261, R437). -/
structure GenReq where
  reqId : DWord
  session : DWord
  tenant : Nat
  pool : Nat
  adapterEn : Bool
  pin : Bool
  stop0 : Option Word
  stop1 : Option Word
  topkEn : Bool
  toppEn : Bool
  adapterId : Nat
  topK : Nat
  policyVer : Word
  promptLen : Nat
  maxNew : Nat
  temp : Word
  topP : Word
  seed : DWord
  prompt : List Word
  deriving DecidableEq, Repr

/-- A request in a pool's queue, with the ticks that its ADMIT_MS clock has run and where it was last read (R265, R308);
`home` is the position of its home where that is another module, whose requests the scheduler holds too. -/
structure Queued where
  req : GenReq
  ran : Nat
  since : Nat
  home : Option Nat := none
  deriving DecidableEq, Repr

inductive SlotState where
  | prefill | decode | ending
  deriving DecidableEq, Repr

/-- The page list of one attention layer of a slot on this module (R235): the layer's index among the instance's records,
H_loc, and the entries in their two copies; an entry beyond those listed is 0. -/
structure KvList where
  layer : Nat
  heads : Nat
  first : List Word := []
  second : List Word := []
  deriving DecidableEq, Repr

/-- A slot that is not FREE (R261). -/
structure Slot where
  state : SlotState
  req : GenReq
  split : Nat
  adapterVer : Word
  policy : Word
  mixed : Bool := false
  suspect : Bool := false
  cancelled : Bool := false
  held : Nat := 0
  generated : Nat := 0
  emptyRow : Word := 0
  home : Nat
  /-- the pages reserved on this module, and the bases of the page lists and of the key bitmaps -/
  pages : Nat
  pageList : Nat := 0
  maskList : Nat := 0
  /-- the page lists, and the pages of lists that a rebuild has replaced and not yet freed (R234 to R236, R255) -/
  lists : List KvList := []
  old : List Nat := []
  /-- the positions to be prefilled: the prompt, or on a rebuild every position that the sequence held (R255) -/
  fill : Nat := 0
  admitStep : Nat
  admitTime : Nat
  end_ : Nat := 0
  endStatus : Status := .ok
  /-- positions placed in the running step, whether it samples there, and whether its token stands committed -/
  placed : Nat := 0
  samples : Bool := false
  committed : Bool := false
  /-- rows masked for the rest of the step (R254) -/
  masked : Bool := false
  deriving DecidableEq, Repr

/-- A tenant (R263). -/
structure Tenant where
  slotMax : Nat
  pageMax : Nat
  adapterMax : Nat
  pools : DWord
  key : List Byte
  disabled : Bool
  deriving DecidableEq, Repr

/-- A resident adapter version (R282, R283): its image in two copies, and whether one holds a poisoned line (R286). -/
structure AdapterVer where
  num : Word
  image : List Byte
  copy : List Byte := []
  poison : Bool := false
  deriving DecidableEq, Repr

/-- An adapter ID of an instance (R279 to R283): its tenant, its resident versions, the current one, a version that
becomes current at the next boundary, a deletion that takes effect there, and the greatest version it has held. -/
structure Adapter where
  inst : Nat
  id : Nat
  tenant : Nat
  versions : List AdapterVer
  current : Option Word
  next : Option Word
  deleting : Bool
  top : Word
  deriving DecidableEq, Repr

structure Serving where
  slots : SMap Slot := []
  queue : List Queued := []
  /-- the step number, and whether a step of this sheaf runs -/
  step : Nat := 0
  running : Bool := false
  lastBoundary : Nat := 0
  adapters : List Adapter := []
  /-- REQUEST_IDs of the most recently ended requests, newest first (R276, R433), and whether each committed a token -/
  ended : List (DWord × Bool) := []
  deriving DecidableEq, Repr

/-! ### The service protocol (chapter 16) -/

/-- Whom a session is bound to (R425, R428). -/
inductive Binding where
  | tenant (id : Nat)
  | operator (slot : Nat)
  deriving DecidableEq, Repr

/-- A connection (R422, R425). -/
structure Conn where
  version : Nat := 2
  hello : Option (DWord × Binding) := none
  /-- the body's ROLE and TENANT as the HELLO carried them, and the NONCE -/
  role : Nat := 0
  tenant : Nat := 0
  nonce : List Byte := []
  helloAt : Nat := 0
  fails : Nat := 0
  auth : Bool := false
  sent : Word := 0
  deriving DecidableEq, Repr

/-- A message toward a client: the type, the status and detail, the request's ID and the body. -/
structure Reply where
  ty : Nat
  status : Status
  detail : Nat
  reqId : DWord
  body : List Byte
  deriving DecidableEq, Repr

/-- A session (R428, R429): its binding, its connection, since when it has none, and the messages that its output ring
holds for it. -/
structure SvcSession where
  binding : Binding
  conn : Option Nat
  detachedAt : Nat := 0
  ring : List Reply := []
  /-- terminals held for a fenced home's requests (R445) -/
  fenced : List Reply := []
  /-- the TOKENS and TERMINAL messages handed to SEND on its connection, in order; without a connection those whose SEND
  had not completed (R429) -/
  flight : List Reply := []
  deriving DecidableEq, Repr

/-- Why a completion waits (R435). -/
inductive Owed where
  | adapterPut (inst id : Nat) (ver : Word)
  | adapterDel (inst id : Nat)
  | weightSet (inst : Nat) (setId : DWord) (setVer : Word)
  | learn (inst : Nat)
  | secure
  | handover (module : Nat)
  /-- the answer of the home to which a CANCEL or a REWARD was forwarded (R276, R434) -/
  | forwarded (home : Nat)
  deriving DecidableEq, Repr

/-- A request that awaits completion. -/
structure Waiting where
  session : DWord
  conn : Nat
  ty : Nat
  reqId : DWord
  why : Owed
  deriving DecidableEq, Repr

/-! ### What a cutover moves (R401, R444) -/

/-- The job's state as the module that hands over sends it: the instances with their sample stores, the pools' slots,
queues and scheduler state, the thresher's shards, gradients, journal and secured copies, the sessions with their held
entries, the tenants, and pages of the reserve's DRAM with their bytes. -/
structure JobMove where
  insts : SMap Inst := []
  serving : Serving := {}
  thresher : Thresher := {}
  sessions : List (DWord × SvcSession) := []
  tenants : SMap Tenant := []
  pages : List (Nat × List Byte) := []
  deriving DecidableEq, Repr

end Sys2Proof.Machine
end

