-- ==== Sys2Proof/Syntax.lean ====
section
/-! DEFINITION. The commands of the block: one constructor of `Instr` for each row of spec/opcode_table.json,
with the operands that the row's rule gives it. Everything a command needs and the block does not hold itself
(a sensor reading, the bytes of a message, the answer of a peer) is an operand. -/

namespace Sys2Proof

/-- The commands of the block. -/
inductive Instr where
  | misalignedRegAccess (addr : BitVec 44) (width : Nat) (wr : Bool) (val : DWord)
  | unassignedRegAccess (addr : BitVec 44) (wr : Bool) (val : Word)
  | regWrite (addr : BitVec 44) (val : Word)
  | counterLoRead (addr : BitVec 44)
  | constellationComplete (id : Nat) (desc : ConsDesc) (seq : Word) (members : List (Option (List Byte)))
  | tlyAdd (h : Hart) (w : Xkvl) (rs1 rs2 : DWord)
  | tlySet (h : Hart) (w : Xkvl) (rs1 rs2 : DWord)
  | tlyWait (h : Hart) (w : Xkvl) (rs1 rs2 : DWord)
  | tlyWaitSatisfied (h : Hart) (reported : Option Word)
  | tallyPollTick (p : Poller)
  | tlyPoll (h : Hart) (w : Xkvl) (rs1 rs2 : DWord)
  | remoteTallyArrive (src : ModuleId) (op : RemoteOp) (tally : BitVec 14) (val : Word) (tag : Nat)
  | kfence (h : Hart) (w : Xkvl)
  | riscvFence (h : Hart) (tso : Bool)
  | kqPush (h : Hart) (w : Xkvl) (rs1 : DWord)
  | strRearm (h : Hart) (w : Xkvl) (rs1 rs2 : DWord)
  | strResume (h : Hart) (w : Xkvl) (rs1 : DWord)
  | hartAccess (h : Hart) (op : MemOp) (addr : DWord) (val : DWord) (rd : Fin 32)
  | hartAmo (h : Hart) (fn : ScAmo) (addr : DWord) (val : DWord) (rd : Fin 32)
  | tile (k : CoreIx)
  | partialMergeDone (k : CoreIx) (g : UnitIx)
  | staggerWindowEnd (c : ClusterIx)
  | tileDrainDone (k : CoreIx)
  | egressQueueSpace (k : CoreIx) (u : UnitIx)
  | mxeDiscardGroups (k : CoreIx)
  | mxeFlush (k : CoreIx)
  | mxeEnable (k : CoreIx) (en : Bool)
  | cplHeadWrite (e : EngineSel) (head : BitVec 5)
  | add (k : CoreIx)
  | sub (k : CoreIx)
  | mul (k : CoreIx)
  | fma (k : CoreIx)
  | min (k : CoreIx)
  | max (k : CoreIx)
  | abs (k : CoreIx)
  | cvt (k : CoreIx)
  | cmp (k : CoreIx)
  | div (k : CoreIx)
  | sqrt (k : CoreIx)
  | rsqrt (k : CoreIx)
  | rcp (k : CoreIx)
  | exp (k : CoreIx)
  | log (k : CoreIx)
  | lut (k : CoreIx)
  | lutload (k : CoreIx)
  | redsum (k : CoreIx)
  | redmax (k : CoreIx)
  | redmin (k : CoreIx)
  | rmsinv (k : CoreIx)
  | smaxRow (k : CoreIx)
  | smaxRescale (k : CoreIx)
  | smaxMerge (k : CoreIx)
  | smaxFinal (k : CoreIx)
  | sample (k : CoreIx)
  | vxeFlush (k : CoreIx)
  | vxeEnable (k : CoreIx) (en : Bool)
  | copy (k : CoreIx) (u : UnitIx)
  | ring (k : CoreIx) (u : UnitIx)
  | egress (k : CoreIx) (u : UnitIx)
  | atomic (k : CoreIx) (u : UnitIx)
  | drillRingRowWrite (c : ClusterIx)
  | translationFault (c : ClusterIx)
  | pageFillDone (c : ClusterIx) (ctx : Fin 8) (va : BitVec 48) (attempts : List Bulk)
  | tierTimeout (k : CoreIx) (u : UnitIx) (slot : UnitIx)
  | strAbortHalted (k : CoreIx) (u : UnitIx)
  | strFlush (k : CoreIx) (u : UnitIx)
  | strEnable (k : CoreIx) (u : UnitIx) (en : Bool)
  | strResumeReg (k : CoreIx) (u : UnitIx) (val : Word)
  | xltInvalAll (c : ClusterIx)
  | xltInvalCtx (c : ClusterIx) (ctx : Fin 8)
  | xltInvalDone (c : ClusterIx)
  | digestArm (c : ClusterIx) (n : Fin 64)
  | scCfgWrite (c : ClusterIx) (val : Word)
  | tlyClear (c : ClusterIx)
  | tlyValueWrite (t : BitVec 14) (val : Word)
  | staggerCommit (c : ClusterIx)
  | collCommit
  | shadowGroupApply (g : ShadowGroup)
  | refresh (ch : ChannelIx) (upsets : List (Nat × SymErrs))
  | patrolScrub (ch : ChannelIx) (found : SymErrs)
  | ueReport (copyTo table : Option Nat)
  | ceHourEnd
  | channelFence (ch : ChannelIx) (cause : FenceChannelCause)
  | mapoutClear (c : ClusterIx) (bits : BitVec 16)
  | stackTempSample (st : ClusterIx) (readings : List (Option Int))
  | hotStepTick (st : ClusterIx)
  | dramRequestFall (c : ClusterIx)
  | stackOnline (st : ClusterIx)
  | slowMemberNotice (module : ModuleId) (state reason : Byte) (time : DWord)
  | stepBoundary (news : SheafNews)
  | pausedBoundaryTick (news : SheafNews)
  | admitTimeout (req : DWord)
  | tokenCommit (slot : BitVec 14) (run : SampleRun)
  | stepEnd (news : SheafNews)
  | cancelNotice (slot : BitVec 14)
  | weightPoison (inst : Nat) (pages : List Nat) (adapters : List AdapterPoison)
  | stepReissue (inst : Nat) (refills : List (Nat × List Byte))
  | repairTimeout (inst : Nat)
  | weightScrub (inst tensor : Nat) (resident : List Byte)
  | turnStart (inst : Nat) (rooms : List RoomReport) (resident : List (Nat × List Byte))
  | shardArrive (inst tensor : Nat) (pos : Fin 8) (info : ShardInfo) (data again : List Byte)
  | turnCommit (inst : Nat)
  | turnTimeout (inst : Nat)
  | instanceClose (coll : BitVec 12) (remote : List RemoteJoin)
  | collectiveDeadline (coll : BitVec 12) (remote : List RemoteJoin)
  | lateContribution (coll : BitVec 12) (inst : Word) (j : RemoteJoin)
  | allreduce (k : CoreIx)
  | reduceScatter (k : CoreIx)
  | allgather (k : CoreIx)
  | broadcast (k : CoreIx)
  | scatter (k : CoreIx)
  | reduceToOwner (k : CoreIx)
  | dispatch (k : CoreIx)
  | combine (k : CoreIx)
  | barrier (k : CoreIx)
  | shardUpdate (tensor : Nat)
  | updConstellationTake
  | journalRecord (owner : ModuleId) (j : JournalMsg)
  | journalAck (tensor : Nat) (step : DWord)
  | jrnlWaitTimeout (tensor : Nat)
  | shardFlip (tensor : Nat)
  | updateRedo (tensor : Nat) (cause : RedoCause)
  | thrHoldFlips (hold : Bool)
  | thrEnable (en : Bool)
  | riskTick
  | riskReport (module : ModuleId) (risk : Byte)
  | eclipseE0
  | eclipseResume (bytes : Nat)
  | handoverCutover (bytes : Nat) (moved : Option Machine.JobMove)
  | heartbeatSend
  | sheafHeartbeatSend
  | heartbeatMiss (g : PortIx)
  | suspicion (sender peer : Fin 9)
  | linkFaultTimeout (peer : Fin 9)
  | selfFence
  | sheafHeartbeatMiss (sheaf : Fin 512)
  | fenceNotice (module : Option ModuleId) (arbiter : ModuleId) (cause : Byte)
  | takeover (pos : Fin 8) (homes : List FencedHome)
  | restoreCheck (ordered : Bool) (loss : Option (Word × Word))
  | takeoverTimeout
  | reserveJoin
  | hello (m : Msg)
  | auth (m : Msg)
  | authTimeout (conn : Nat)
  | bye (m : Msg)
  | sessionTimeout (session : DWord)
  | remoteAccessNak (conn : Nat)
  | generate (m : Msg) (bulk : Bulk)
  | cancel (m : Msg) (via : Via)
  | reward (m : Msg) (via : Via)
  | sampleRead (m : Msg) (writeOk : Bool)
  | adapterPut (m : Msg) (bulk : Bulk)
  | adapterDel (m : Msg)
  | planLoad (m : Msg) (bulk : Option Plan)
  | planUnload (m : Msg)
  | weightSet (m : Msg) (manifest : Bulk) (data again : Bulk)
  | learn (m : Msg) (via : Via)
  | secure (m : Msg) (via : Via)
  | handover (m : Msg) (via : Via)
  | tenant (m : Msg)
  | calRead (m : Msg) (writeOk : Bool)
  | calWrite (m : Msg) (bulk : Bulk) (powerLost : Bool)
  | fwBlock (m : Msg) (bulk : Bulk)
  | statusIdent (m : Msg)
  | statusPolicy (m : Msg)
  | statusDram (m : Msg)
  | statusTurn (m : Msg)
  | statusOwners (m : Msg) (writeOk : Bool)
  | statusNightwatch (m : Msg)
  | statusFallow (m : Msg)
  | statusClearPending (m : Msg)
  | statusFirmware (m : Msg)
  | flitReceive (g : PortIx) (f : Flit)
  | replayTimeout (g : PortIx)
  | ackTick (g : PortIx)
  | trainingStart (g : PortIx)
  | trainingEnd (g : PortIx) (lanes : BitVec 8) (farGen1 : Bool) (peer : Fin 9)
  | laneLockLoss (g : PortIx) (lane : PortIx)
  | ethLinkLoss (p : PortIx)
  | nvmeTimeout (port : UnitIx) (link : Fin 2)
  | i3cDaa (setdasa : Bool) (addr : BitVec 7)
  | pldmRequest (smbus : Bool) (r : PldmReq)
  | pldmActivateFirmware
  | pldmSetTai (sec : Word)
  | beaconRead (addr : Byte)
  | beaconRefresh
  | moduleEnAssert (env : StartEnv)
  | serviceEntry (ms : Nat)
  | noDataPortTimeout
  | moduleEnDeassert
  | warmRestart (env : StartEnv)
  | failedTimeout
  | confirmCheck
  | confirmDeadline
  | ppsPulse
  | ppsHoldover
  | pstArm
  | taiSetFallback
  | pstNowRead
  | repeatFlush
  | almSpiRead (addr : BitVec 24) (n : Nat)
  | almWindowWrite (addr : BitVec 44) (val : Word)
  | inputFailure (mv : Int)
  | railSwitchOff
  | capTick (watts ca : Nat)
  | dieTempSample (c : ClusterIx) (reading : Option Int)
  | thermalShutdown
  | aclkStep (c : ClusterIx)
  | pwrAclkCfgWrite (c : ClusterIx) (val : Word)
  | connectionRequest (conn : Nat) (supported : Bool)
  | connectionLoss (conn unsent : Nat)
  | fencedTerminalExpiry (session : DWord)
  | ethLinkUp (p : PortIx)
  | nvmeDriveRemoval (port : UnitIx) (link : Fin 2)
  | nvmeResetTimeout (port : UnitIx)
  | nvmeCopyDone
  | regulatorWarning (mv : Int) (oc phase : Bool)
  | regulatorTrip
  | firmwareTrap (core : UnitIx) (mcause mepc mtval : DWord)
  | securedRefresh (owner : ModuleId) (tensor : Nat) (copy : ShardCopy)
  | eclipseRepeat
  | mctpSetEndpointId (smbus : Bool) (eid : Byte)
  | pldmFirmwareData (offset : Nat) (data : List Byte) (len : Nat)
  deriving DecidableEq, Repr

end Sys2Proof
end

