-- ==== Sys2Proof/Decode.lean ====
section
/-! DEFINITION. The decoder over the rows of the command table that give bits: no row gives any, so no word spells a
command. Beside it, the words of the Kykecy extension, whose encoding R142 gives. -/

namespace Sys2Proof

/-- The command that a word spells by the table's bits. The table gives none of its rows bits. -/
def decodeTableWord (_nbits _w : Nat) : Option Instr := none

/-- R142: the Xkvl command that a 32-bit word spells for a hart, with the values of rs1 and rs2; none where its major
opcode is not custom-0. A funct7 that R142 does not show is the command's to refuse. -/
def decodeXkvl (h : Hart) (rs1 rs2 : DWord) (e : Word) : Option Instr :=
  let w : Xkvl := ⟨e.extractLsb' 25 7, (e.extractLsb' 20 5).toFin, (e.extractLsb' 15 5).toFin, (e.extractLsb' 7 5).toFin⟩
  if e.extractLsb' 0 7 = 0x0B#7 then
    match (e.extractLsb' 12 3).toNat with
    | 0 => some (.tlyAdd h w rs1 rs2)
    | 1 => some (.tlySet h w rs1 rs2)
    | 2 => some (.tlyWait h w rs1 rs2)
    | 3 => some (.tlyPoll h w rs1 rs2)
    | 4 => some (.kfence h w)
    | 5 => some (.kqPush h w rs1)
    | 6 => some (.strRearm h w rs1 rs2)
    | _ => some (.strResume h w rs1)
  else none

/-- R142: funct7, rs2, rs1, funct3, rd and the major opcode, from the most significant bit down. -/
def xkvlWord (w : Xkvl) (funct3 : BitVec 3) : Word :=
  w.f7 ++ BitVec.ofNat 5 w.r2.val ++ BitVec.ofNat 5 w.r1.val ++ funct3 ++ BitVec.ofNat 5 w.rd.val ++ 0x0B#7

/-- The word of an Xkvl command. -/
def encodeXkvl : Instr → Option Word
  | .tlyAdd _ w _ _ => some (xkvlWord w 0)
  | .tlySet _ w _ _ => some (xkvlWord w 1)
  | .tlyWait _ w _ _ => some (xkvlWord w 2)
  | .tlyPoll _ w _ _ => some (xkvlWord w 3)
  | .kfence _ w => some (xkvlWord w 4)
  | .kqPush _ w _ => some (xkvlWord w 5)
  | .strRearm _ w _ _ => some (xkvlWord w 6)
  | .strResume _ w _ => some (xkvlWord w 7)
  | _ => none

end Sys2Proof
end

