-- ==== Sys2Proof/Config.lean ====
section
/-! DEFINITION. What an implementation or an earlier history of the module fixes, and the free values: opaque constants
without a body, applied to the counter `State.freeCtr` or to an address. Nothing in Lean can evaluate one. -/

namespace Sys2Proof.Config

/-- Free 32-bit values, by the step's counter. DESIGN CHOICE: log entry 14. -/
opaque freeWord : Nat → BitVec 32
/-- Free 64-bit values, by the step's counter. -/
opaque freeDWord : Nat → BitVec 64
/-- Free bytes, by the step's counter and an index. -/
opaque freeByte : Nat → Nat → BitVec 8
/-- The undefined contents of an addressable shared-cache part after CLU_SC_CFG has taken effect (R151), by the number
of such writes and the local physical address. -/
opaque scByte : Nat → Nat → BitVec 8
/-- A byte that another module holds at a global address (R31), by the step's counter. -/
opaque peerByte : Nat → Nat → BitVec 8
/-- Whether a line of another module is poisoned, by the step's counter and its global line number. -/
opaque peerPoison : Nat → Nat → Bool
/-- The Kykecy public keys 0 and 1 of the boot ROM (R474), byte by byte. -/
opaque kykecyKey : Nat → Nat → BitVec 8
/-- Which cached translation gives way when the cache is full (R159), by the step's counter.
DESIGN CHOICE: log entry 42. -/
opaque replaced : Nat → Nat
/-- The hash that gives an RC queue pair the first of the Ethernet ports at which it is tried (R458), by the queue pair's
number. DESIGN CHOICE: log entry 132. -/
opaque queuePairHash : Nat → Nat

end Sys2Proof.Config
end

