-- ==== Sys2Proof/Machine/Num.lean ====
section
/-! DEFINITION. The number formats of R64, R90 and R91, exact arithmetic on their values, and rounding into them. -/

namespace Sys2Proof.Machine

/-- The value of an element: (−1)^neg · man · 2^exp, an infinity or a NaN. A zero keeps its sign. -/
inductive FVal where
  | fin (neg : Bool) (man : Nat) (exp : Int)
  | inf (neg : Bool)
  | nan
  deriving DecidableEq, Repr

/-- How a format uses its top exponent (R90, R91). -/
inductive TopKind where
  | ieee | nanOnly | e4m3
  deriving DecidableEq, Repr

/-- A floating-point format. -/
structure FFmt where
  ebits : Nat
  mbits : Nat
  bias : Nat
  top : TopKind
  deriving DecidableEq, Repr

/-- The formats of R90 by code, and A40 (R64). -/
def fp32 : FFmt := ⟨8, 23, 127, .ieee⟩
def bf16 : FFmt := ⟨8, 7, 127, .ieee⟩
def fp16 : FFmt := ⟨5, 10, 15, .ieee⟩
def f12w : FFmt := ⟨8, 3, 127, .nanOnly⟩
def e4m3 : FFmt := ⟨4, 3, 7, .e4m3⟩
def e5m2 : FFmt := ⟨5, 2, 15, .ieee⟩
def a40 : FFmt := ⟨10, 39, 511, .ieee⟩

/-- The floating-point format of a code of R34; none for an integer or reserved code. -/
def ffmtOf : Nat → Option FFmt
  | 0 => some fp32
  | 1 => some bf16
  | 2 => some fp16
  | 3 => some f12w
  | 4 => some e4m3
  | 5 => some e5m2
  | _ => none

/-- Bits per element of a code of R34 or R90. -/
def elemBits : Nat → Nat
  | 0 => 32 | 1 => 16 | 2 => 16 | 3 => 12 | 4 => 8 | 5 => 8 | 6 => 8 | 7 => 4 | _ => 32

/-- An integer format of R90: INT8, INT4, INT32. -/
def isIntFmt (c : Nat) : Bool := c == 6 || c == 7 || c == 8

/-- Two's complement of `n` bits. -/
def toInt (n v : Nat) : Int := if v % 2^n < 2^(n - 1) then (v % 2^n : Nat) else (v % 2^n : Nat) - (2^n : Nat)

/-- An integer modulo 2^n. -/
def ofInt (n : Nat) (v : Int) : Nat := (v % (2^n : Nat)).toNat

namespace FFmt

/-- The exponent of the least subnormal. -/
def emin (f : FFmt) : Int := 1 - (f.bias : Int) - f.mbits

/-- The all-ones exponent field. -/
def etop (f : FFmt) : Nat := 2^f.ebits - 1

/-- The value of an encoding (R64, R90, R91). -/
def decode (f : FFmt) (w : Nat) : FVal :=
  let m := w % 2^f.mbits
  let e := w / 2^f.mbits % 2^f.ebits
  let s := w / 2^(f.mbits + f.ebits) % 2 == 1
  if e = f.etop ∧ f.top = .nanOnly then .nan
  else if e = f.etop ∧ f.top = .ieee then (if m = 0 then .inf s else .nan)
  else if e = f.etop ∧ m = 2^f.mbits - 1 then .nan
  else if e = 0 then .fin s m f.emin
  else .fin s (2^f.mbits + m) (f.emin + ((e : Int) - 1))

/-- The largest finite magnitude, as a mantissa and an exponent. -/
def maxMan (f : FFmt) : Nat := if f.top = .e4m3 then 2^(f.mbits + 1) - 2 else 2^(f.mbits + 1) - 1
def maxExp (f : FFmt) : Int := if f.top = .e4m3 then f.emin + (f.etop - 1 : Nat) else f.emin + (f.etop - 2 : Nat)

/-- The NaN that the device writes (R64, R90). -/
def canonNan (f : FFmt) : Nat :=
  match f.top with
  | .nanOnly => f.etop * 2^f.mbits + 2^(f.mbits - 1)
  | .e4m3 => f.etop * 2^f.mbits + (2^f.mbits - 1)
  | .ieee => f.etop * 2^f.mbits + 2^(f.mbits - 1)

/-- The sign bit at its place. -/
def signBit (f : FFmt) (s : Bool) : Nat := if s then 2^(f.mbits + f.ebits) else 0

/-- An infinity's encoding (a format with infinities). -/
def encInf (f : FFmt) (s : Bool) : Nat := f.signBit s + f.etop * 2^f.mbits

/-- The encoding of a representable finite value; `m` holds at most mbits + 1 bits. -/
def encFin (f : FFmt) (s : Bool) (m : Nat) (e : Int) : Nat :=
  if m = 0 then f.signBit s
  else
    -- bring the mantissa up to mbits + 1 bits, or the exponent down to emin
    let up := min (f.mbits - Nat.log2 m) (e - f.emin).toNat
    let m' := m * 2^up
    let e' := e - up
    if m' < 2^f.mbits then f.signBit s + m'
    else f.signBit s + (((e' - f.emin).toNat + 1) * 2^f.mbits + (m' - 2^f.mbits))

/-- The largest finite value of a sign. -/
def encMax (f : FFmt) (s : Bool) : Nat := f.encFin s f.maxMan f.maxExp

/-- The exponent of the spacing at a magnitude man · 2^exp: the top binade's spacing goes on above it (R98). -/
def spacing (f : FFmt) (m : Nat) (e : Int) : Int := max f.emin (e + Nat.log2 m - f.mbits)

end FFmt

/-- ⌊man · 2^exp / 2^q⌋ and whether anything was left over. -/
def floorAt (m : Nat) (e q : Int) : Nat × Bool :=
  if q ≤ e then (m * 2^(e - q).toNat, false)
  else
    let d := 2^(q - e).toNat
    (m / d, m % d != 0)

/-- man · 2^exp to the nearest multiple of 2^q, ties to the even multiple; `sticky` says that the magnitude lies
above man · 2^exp by less than one unit of its last place. -/
def rneAt (m : Nat) (e q : Int) (sticky : Bool) : Nat :=
  if q ≤ e then m * 2^(e - q).toNat
  else
    let d := 2^(q - e).toNat
    let k := m / d
    let r := m % d
    if 2 * r > d ∨ (2 * r = d ∧ (sticky ∨ k % 2 = 1)) then k + 1 else k

/-- A multiple of a spacing brought back to at most mbits + 1 bits (after a carry). -/
def FFmt.norm (f : FFmt) (k : Nat) (q : Int) : Nat × Int :=
  if k = 2^(f.mbits + 1) then (2^f.mbits, q + 1) else (k, q)

/-- Is k · 2^q above the format's largest finite value. -/
def FFmt.beyond (f : FFmt) (k : Nat) (q : Int) : Bool :=
  if q ≤ f.maxExp then decide (k > f.maxMan * 2^(f.maxExp - q).toNat)
  else decide (k * 2^(q - f.maxExp).toNat > f.maxMan)

/-- A finite magnitude rounded to nearest-even, as a value: an infinity beyond range (IEEE 754). -/
def FFmt.rne (f : FFmt) (s : Bool) (m : Nat) (e : Int) (sticky : Bool := false) : FVal :=
  if m = 0 then .fin s 0 f.emin
  else
    let q := f.spacing m e
    let k := rneAt m e q sticky
    let (k, q) := f.norm k q
    if f.beyond k q then .inf s else .fin s k q

namespace FVal

def isNan : FVal → Bool
  | .nan => true
  | _ => false

def isInf : FVal → Bool
  | .inf _ => true
  | _ => false

def isZero : FVal → Bool
  | .fin _ m _ => m == 0
  | _ => false

def neg : FVal → FVal
  | .fin s m e => .fin (!s) m e
  | .inf s => .inf (!s)
  | .nan => .nan

def abs : FVal → FVal
  | .fin _ m e => .fin false m e
  | .inf _ => .inf false
  | .nan => .nan

/-- The sign; of no meaning for a NaN. -/
def sign : FVal → Bool
  | .fin s _ _ => s
  | .inf s => s
  | .nan => false

/-- Rounded to nearest-even into a format, infinity beyond range; the value of the result. -/
def rnd (f : FFmt) : FVal → FVal
  | .fin s m e => f.rne s m e
  | v => v

/-- The exact product (R71). -/
def mul : FVal → FVal → FVal
  | .nan, _ => .nan
  | _, .nan => .nan
  | .inf s, .inf t => .inf (s != t)
  | .inf s, .fin t m _ => if m = 0 then .nan else .inf (s != t)
  | .fin s m _, .inf t => if m = 0 then .nan else .inf (s != t)
  | .fin s m e, .fin t n d => .fin (s != t) (m * n) (e + d)

/-- The signed mantissa at an exponent not above the value's own. -/
def scaled (q : Int) : FVal → Int
  | .fin s m e => let v : Int := (m * 2^(e - q).toNat : Nat); if s then -v else v
  | _ => 0

/-- The exponent of a finite value; 0 otherwise. -/
def expo : FVal → Int
  | .fin _ _ e => e
  | _ => 0

/-- The exact sum of a list. A NaN or opposite infinities give NaN (R71); an exact zero is +0 unless every term is −0
(R68). -/
def sum (l : List FVal) : FVal :=
  if l.any isNan then .nan
  else if l.any (· == .inf false) then (if l.any (· == .inf true) then .nan else .inf false)
  else if l.any (· == .inf true) then .inf true
  else
    let q := (l.map expo).foldl min 0
    let t := (l.map (scaled q)).foldl (· + ·) 0
    if t = 0 then .fin (!l.isEmpty && l.all fun v => v.isZero && v.sign) 0 q
    else .fin (decide (t < 0)) t.natAbs q

/-- The exact sum of two. -/
def add (a b : FVal) : FVal := sum [a, b]

/-- Exact comparison of two values that are no NaN: −0 and +0 are equal. -/
def le : FVal → FVal → Bool
  | .nan, _ => false
  | _, .nan => false
  | .inf true, _ => true
  | _, .inf false => true
  | .inf false, _ => false
  | _, .inf true => false
  | a, b => let q := min a.expo b.expo; decide (a.scaled q ≤ b.scaled q)

def eqv (a b : FVal) : Bool := le a b && le b a
def lt (a b : FVal) : Bool := le a b && !le b a

/-- An integer as a value; 0 is +0. -/
def ofInt (v : Int) : FVal := .fin (decide (v < 0)) v.natAbs 0

/-- The encoding of a value that the format represents, or of its NaN or infinity. -/
def enc (f : FFmt) : FVal → Nat
  | .nan => f.canonNan
  | .inf s => f.encInf s
  | .fin s m e =>
    -- strip a mantissa held at a finer exponent than the format's spacing
    let q := if m = 0 then f.emin else f.spacing m e
    f.encFin s (floorAt m e q).1 q

end FVal

/-- The 8-byte image of an A40 value (R64): [49] s, [48:39] e, [38:0] f. -/
def a40Image (v : FVal) : DWord := BitVec.ofNat 64 (v.enc a40)
def a40Of (w : DWord) : FVal := a40.decode w.toNat

/-- A value rounded to A40 (R68, R93). -/
def rne40 (v : FVal) : FVal := v.rnd a40

/-- R67: truncation of a product toward zero to its leading bit and the 40 bits below it. -/
def trunc40 : FVal → FVal
  | .fin s m e => if m < 2^41 then .fin s m e else
    let d := Nat.log2 m - 40
    .fin s (m / 2^d) (e + d)
  | v => v

/-- The flags of R101 in the bit order of MXE_CONV_STATUS (R107): FP_SAT 0, INT_WRAP 1, INT_SAT 2, NAN_TO_INT 3,
INF_TO_NAN 4, POISON_OUT 5, FP_INF 6. -/
abbrev ConvFlags := BitVec 7
def fpSat : ConvFlags := 0x01#7
def intWrap : ConvFlags := 0x02#7
def intSat : ConvFlags := 0x04#7
def nanToInt : ConvFlags := 0x08#7
def infToNan : ConvFlags := 0x10#7
def poisonOut : ConvFlags := 0x20#7
def fpInf : ConvFlags := 0x40#7

/-- R99: stochastic rounding of a magnitude to a multiple of 2^q with the random number r. -/
def stochAt (m : Nat) (e q : Int) (r : Nat) : Nat :=
  let (lo, left) := floorAt m e q
  if left then
    -- t = ⌊2^16 · (|y| − lo·2^q) / 2^q⌋
    let t := (floorAt m e (q - 16)).1 - lo * 2^16
    if t + r ≥ 65536 then lo + 1 else lo
  else lo

/-- Rounding into a multiple of 2^q by ROUND: none nearest-even (R98), some r stochastic (R99). -/
def roundAt (rnd : Option Nat) (m : Nat) (e q : Int) : Nat :=
  match rnd with
  | none => rneAt m e q false
  | some r => stochAt m e q r

/-- R98, R99, R101: conversion into a floating-point format. -/
def convFloat (f : FFmt) (rnd : Option Nat) : FVal → Nat × ConvFlags
  | .nan => (f.canonNan, 0)
  | .inf s => if f.top = .ieee then (f.encInf s, 0) else (f.canonNan, infToNan)
  | .fin s m e =>
    if m = 0 then (f.signBit s, 0)
    else
      let q := f.spacing m e
      let (k, q) := f.norm (roundAt rnd m e q) q
      if f.beyond k q then
        (if f.top = .ieee then (f.encInf s, fpInf) else (f.encMax s, fpSat))
      else (f.encFin s k q, 0)

/-- R101, R102: conversion into two's complement of `n` bits, saturating or wrapping. -/
def convInt (n : Nat) (rnd : Option Nat) (wrap : Bool) : FVal → Nat × ConvFlags
  | .nan => (0, nanToInt)
  | .inf s => (if s then 2^(n - 1) else 2^(n - 1) - 1, intSat)
  | .fin s m e =>
    let k := roundAt rnd m e 0
    let v : Int := if s then -(k : Int) else k
    if v > (2^(n - 1) : Nat) - 1 ∨ v < -((2^(n - 1) : Nat) : Int) then
      (if wrap then (ofInt n v, intWrap) else (if s then 2^(n - 1) else 2^(n - 1) - 1, intSat))
    else (ofInt n v, 0)

/-- The number of bits of an integer output code. -/
def intBits : Nat → Nat
  | 6 => 8 | 7 => 4 | _ => 32

/-- R93's convert(y, OUT_FMT, ROUND, WRAPMODE). -/
def convOut (code : Nat) (rnd : Option Nat) (wrap : Bool) (y : FVal) : Nat × ConvFlags :=
  match ffmtOf code with
  | some f => convFloat f rnd y
  | none => convInt (intBits code) rnd wrap y

/-- The value of an element's encoding by code (R34): integers at their value. -/
def elemVal (code w : Nat) : FVal :=
  match ffmtOf code with
  | some f => f.decode w
  | none => FVal.ofInt (toInt (intBits code) w)

/-- The encoding of the NaN that a format writes, 0 for an integer format (R103). -/
def nanOf (code : Nat) : Nat :=
  match ffmtOf code with
  | some f => f.canonNan
  | none => 0

/-- R41: bytes of a stored row of n elements. -/
def rowBytes (code n : Nat) : Nat :=
  if code = 3 then 3 * ((n + 1) / 2) else if code = 7 then (n + 1) / 2 else n * (elemBits code / 8)

/-- R41: 64-byte lines of a stored row. -/
def rowLines (code n : Nat) : Nat := (rowBytes code n + 63) / 64

/-- The byte range in a stored row that holds element i (R92), as an offset and a length. -/
def elemSpan (code i : Nat) : Nat × Nat :=
  if code = 3 then (if i % 2 = 0 then (3 * (i / 2), 2) else (3 * (i / 2) + 1, 2))
  else if code = 7 then (i / 2, 1)
  else (i * (elemBits code / 8), elemBits code / 8)

/-- The encoding of element i of a stored row (R92); `rd` reads the row's bytes. -/
def elemAt (code : Nat) (rd : Nat → Byte) (i : Nat) : Nat :=
  if code = 3 then
    let p := 3 * (i / 2)
    let v := (rd p).toNat + 256 * (rd (p + 1)).toNat + 65536 * (rd (p + 2)).toNat
    if i % 2 = 0 then v % 4096 else v / 4096
  else if code = 7 then
    let v := (rd (i / 2)).toNat
    if i % 2 = 0 then v % 16 else v / 16
  else
    let w := elemBits code / 8
    (List.range w).foldl (fun a j => a + (rd (i * w + j)).toNat * 256^j) 0

/-- The bytes of a stored row from its elements' encodings (R92). -/
def packRow (code : Nat) : List Nat → List Byte
  | [] => []
  | [a] =>
    if code = 3 then [BitVec.ofNat 8 a, BitVec.ofNat 8 (a / 256 % 16), 0]
    else if code = 7 then [BitVec.ofNat 8 (a % 16)]
    else (List.range (elemBits code / 8)).map fun j => BitVec.ofNat 8 (a / 256^j)
  | a :: b :: t =>
    if code = 3 then
      let v := a % 4096 + 4096 * (b % 4096)
      [BitVec.ofNat 8 v, BitVec.ofNat 8 (v / 256), BitVec.ofNat 8 (v / 65536)] ++ packRow code t
    else if code = 7 then [BitVec.ofNat 8 (a % 16 + 16 * (b % 16))] ++ packRow code t
    else ((List.range (elemBits code / 8)).map fun j => BitVec.ofNat 8 (a / 256^j)) ++ packRow code (b :: t)

/-- R105: the histogram bin of y. -/
def histBin : FVal → Nat
  | .nan => 255
  | .inf _ => 255
  | .fin _ m e =>
    if m = 0 then 0
    else
      let b : Int := e + Nat.log2 m + 127
      if b ≤ 0 then 0 else if b ≥ 255 then 255 else b.toNat

end Sys2Proof.Machine
end

