-- ==== Sys2Proof/Machine/Digest.lean ====
section
/-! DEFINITION. The generator, the cyclic codes and the hash that the rules name: Philox4x32-10 (R100), CRC-32C (R212),
the CRC-64 of ECMA-182 (R452), the Reed–Solomon code of DRAM lines (R204) and SHAKE256 (R289). -/

namespace Sys2Proof.Machine

/-- One round of Philox4x32 on a counter, with a key. -/
def philoxRound (k0 k1 : Nat) (c : Nat × Nat × Nat × Nat) : Nat × Nat × Nat × Nat :=
  let (c0, c1, c2, c3) := c
  let p0 := 0xD2511F53 * c0
  let p1 := 0xCD9E8D57 * c2
  ((p1 / 2^32) ^^^ c1 ^^^ k0, p1 % 2^32, (p0 / 2^32) ^^^ c3 ^^^ k1, p0 % 2^32)

/-- `n` rounds, the key bumped by the Weyl constants after each. -/
def philoxRounds : Nat → Nat → Nat → Nat × Nat × Nat × Nat → Nat × Nat × Nat × Nat
  | 0, _, _, c => c
  | n + 1, k0, k1, c =>
    philoxRounds n ((k0 + 0x9E3779B9) % 2^32) ((k1 + 0xBB67AE85) % 2^32) (philoxRound k0 k1 c)

/-- Philox4x32-10 (R100, R131): output word 0. -/
def philoxWord0 (k0 k1 c0 c1 c2 c3 : Nat) : Nat :=
  (philoxRounds 10 (k0 % 2^32) (k1 % 2^32) (c0 % 2^32, c1 % 2^32, c2 % 2^32, c3 % 2^32)).1

/-! ### The Reed–Solomon code of a DRAM line (R204) -/

/-- Multiplication by α, a root of x^8 + x^4 + x^3 + x^2 + 1. -/
def gfX (a : Byte) : Byte := (a <<< 1) ^^^ (if a.getLsbD 7 then 0x1D else 0)

/-- α^n. -/
def gfAlpha : Nat → Byte
  | 0 => 1
  | n + 1 => gfX (gfAlpha n)

def gfMul (a b : Byte) : Byte :=
  (List.range 8).foldr (fun i r => if b.getLsbD i then gfX r ^^^ a else gfX r) 0

/-- The symbol sum of a list of bytes. -/
def gfSum (l : List Byte) : Byte := l.foldl (· ^^^ ·) 0

/-- Symbol i of 67 stands at the power 66 − i: the data bytes first, then the check symbols. DEDUCED: log entry 45. -/
def rsPlace (i : Nat) : Byte := gfAlpha (66 - i)

/-- The value of an error pattern at α^k, which is that of the word that holds it. -/
def rsSyndrome (l : SymErrs) (k : Nat) : Byte := gfSum (l.map fun e => gfMul e.2 (gfAlpha (k * (66 - e.1) % 255)))

/-- An error pattern with one entry for each erroneous symbol, in order of place. -/
def symErrs (l : SymErrs) : SymErrs :=
  ((List.range 67).map fun i => (i, gfSum ((l.filter fun e => e.1 = i).map Prod.snd))).filter fun e => e.2 ≠ 0

/-- R204: what the code makes of a word with an error pattern: none where it detects an error that it cannot correct, else
the symbols that it corrects, one at most. -/
def rsDecode (l : SymErrs) : Option SymErrs :=
  let s0 := rsSyndrome l 0
  let s1 := rsSyndrome l 1
  let s2 := rsSyndrome l 2
  if s0 = 0 ∧ s1 = 0 ∧ s2 = 0 then some []
  else if s0 = 0 then none
  else ((List.range 67).find? fun i => gfMul s0 (rsPlace i) == s1 && gfMul s1 (rsPlace i) == s2).map fun i => [(i, s0)]

/-- R204: the three check symbols of 64 data bytes: the remainder of the data, shifted by three places, by the generator
(x − 1)(x − α)(x − α²). -/
def rsChecks (data : List Byte) : List Byte :=
  let g1 := gfAlpha 2 ^^^ gfAlpha 1 ^^^ 1
  let g2 := gfMul (gfAlpha 2) (gfAlpha 1) ^^^ gfAlpha 2 ^^^ gfAlpha 1
  let g3 := gfMul (gfAlpha 2) (gfAlpha 1)
  let r := data.foldl (fun (r : Byte × Byte × Byte) d =>
    let q := d ^^^ r.1
    (r.2.1 ^^^ gfMul q g1, r.2.2 ^^^ gfMul q g2, gfMul q g3)) (0, 0, 0)
  [r.1, r.2.1, r.2.2]

/-- Eight shifts of the reflected CRC-32C register. -/
def crc32cByte (c : Nat) : Nat :=
  (List.range 8).foldl (fun c _ => if c % 2 = 1 then (c / 2) ^^^ 0x82F63B78 else c / 2) c

/-- CRC-32C of a list of bytes. -/
def crc32c (l : List Byte) : Nat :=
  l.foldl (fun c b => crc32cByte (c ^^^ b.toNat)) 0xFFFFFFFF ^^^ 0xFFFFFFFF

/-- The CRC-64 of ECMA-182 of a list of bytes. -/
def crc64 (l : List Byte) : Nat :=
  l.foldl (fun c b =>
    (List.range 8).foldl (fun c _ =>
      if c / 2^63 % 2 = 1 then ((c * 2) % 2^64) ^^^ 0x42F0E1EBA9EA3693 else (c * 2) % 2^64)
      (c ^^^ (b.toNat * 2^56))) 0

/-! ### SHAKE256 -/

/-- A 64-bit rotation to the left. -/
def rotl64 (v n : Nat) : Nat := let n := n % 64; (v * 2^n) % 2^64 + v / 2^(64 - n)

/-- The rotation of each lane x + 5y, and the round constants. -/
def keccakRot : List Nat :=
  [0, 1, 62, 28, 27, 36, 44, 6, 55, 20, 3, 10, 43, 25, 39, 41, 45, 15, 21, 8, 18, 2, 61, 56, 14]
def keccakRC : List Nat :=
  [0x0000000000000001, 0x0000000000008082, 0x800000000000808A, 0x8000000080008000, 0x000000000000808B,
   0x0000000080000001, 0x8000000080008081, 0x8000000000008009, 0x000000000000008A, 0x0000000000000088,
   0x0000000080008009, 0x000000008000000A, 0x000000008000808B, 0x800000000000008B, 0x8000000000008089,
   0x8000000000008003, 0x8000000000008002, 0x8000000000000080, 0x000000000000800A, 0x800000008000000A,
   0x8000000080008081, 0x8000000000008080, 0x0000000080000001, 0x8000000080008008]

/-- One round of Keccak-f[1600] on 25 lanes. -/
def keccakRound (a : List Nat) (rc : Nat) : List Nat :=
  let g := fun (l : List Nat) i => l.getD i 0
  let c := (List.range 5).map fun x => g a x ^^^ g a (x + 5) ^^^ g a (x + 10) ^^^ g a (x + 15) ^^^ g a (x + 20)
  let d := (List.range 5).map fun x => g c ((x + 4) % 5) ^^^ rotl64 (g c ((x + 1) % 5)) 1
  -- theta, rho: lane x + 5y; pi takes it to y + 5·(2x + 3y mod 5)
  let b := (List.range 25).map fun i =>
    -- the source of lane X + 5Y is x = X + 3Y, y = X
    let x := (i % 5 + 3 * (i / 5)) % 5
    let y := i % 5
    let j := x + 5 * y
    rotl64 (g a j ^^^ g d x) (g keccakRot j)
  let e := (List.range 25).map fun i =>
    let y := 5 * (i / 5)
    let x := i % 5
    g b i ^^^ ((0xFFFFFFFFFFFFFFFF ^^^ g b (y + (x + 1) % 5)) &&& g b (y + (x + 2) % 5))
  e.set 0 (g e 0 ^^^ rc)

/-- Keccak-f[1600]. -/
def keccakF (a : List Nat) : List Nat := keccakRC.foldl keccakRound a

/-- A SHAKE256 absorption in progress: the lanes, and the bytes of the block that is not yet full (newest first). -/
structure Sponge where
  lanes : List Nat
  part : List Byte
  deriving DecidableEq, Repr

def Sponge.init : Sponge := ⟨List.replicate 25 0, []⟩

/-- The bytes of a 136-byte block xored into the lanes. -/
def xorBlock (lanes : List Nat) (blk : List Byte) : List Nat :=
  (List.range 25).map fun i => lanes.getD i 0 ^^^ leNat ((blk.drop (8 * i)).take 8)

/-- One byte absorbed. -/
def Sponge.absorb1 (s : Sponge) (b : Byte) : Sponge :=
  if s.part.length = 135 then ⟨keccakF (xorBlock s.lanes (b :: s.part).reverse), []⟩
  else ⟨s.lanes, b :: s.part⟩

def Sponge.absorb (s : Sponge) (l : List Byte) : Sponge := l.foldl Sponge.absorb1 s

/-- `n` blocks squeezed. -/
def squeeze : Nat → List Nat → List Byte
  | 0, _ => []
  | n + 1, a => ((a.take 17).map (leBytes 8)).flatten ++ squeeze n (keccakF a)

/-- The first `n` bytes of output of SHAKE256 over what was absorbed. -/
def Sponge.finish (s : Sponge) (n : Nat) : List Byte :=
  let p := s.part.reverse
  let blk := p ++ [0x1F#8] ++ List.replicate (135 - p.length) 0
  let blk := blk.set 135 (blk.getD 135 0 ||| 0x80#8)
  (squeeze ((n + 135) / 136) (keccakF (xorBlock s.lanes blk))).take n

/-- SHAKE256 with `n` bytes of output. -/
def shake256 (l : List Byte) (n : Nat) : List Byte := (Sponge.init.absorb l).finish n

/-- R289, R290: the fingerprint, bytes 0 to 7 of the digest. -/
def fingerprint (l : List Byte) : DWord := BitVec.ofNat 64 (leNat (shake256 l 8))

end Sys2Proof.Machine
end

