-- ==== Sys2Proof/Machine/Regs.lean ====
section
/-! DEFINITION. The register map of the block: every register that the register tables of the spec list (R3, R61,
R62, R63, R82, R107, R137, R171 to R174, R194, R227, R288, R306, R307, R334, R335, R360, R389, R420, R448, R468 to
R470, R494 to R496, R503, R514, R529), with its block (R29), its offset, its fields, their access types (R7) and their
reset values (R8). A "cfg" or "fuse" reset stands as 0 here: the start writes the configuration's value (R476 step 10). -/

namespace Sys2Proof.Machine

/-- The access types of R7. -/
inductive Acc where
  | ro | rw | w1c | wo | rws | rwi
  deriving DecidableEq, Repr

/-- A named field of a register: bits hi down to lo. Reserved fields (R6) are not listed. -/
structure Field where
  hi : Nat
  lo : Nat
  acc : Acc
  reset : Nat
  deriving DecidableEq, Repr

/-- How a block's instances are decoded (R29). -/
inductive BlockKind where
  | die | cluster | core
  deriving DecidableEq, Repr

/-- A register: its block number (R29), the offset of its first instance in the block, the (count, stride) of each of
its indices, and its fields. -/
structure RegSpec where
  block : Nat
  base : Nat
  dims : List (Nat × Nat)
  fields : List Field
  deriving DecidableEq, Repr

/-- The registers by name. -/
inductive RegId where
  | supDeviceId | supRevision | supSerial0 | supSerial1 | supSerial2 | supSerial3 | mxeCtrl | mxeStatus 
  | mxeConvBase | mxeCplBase | mxeCplHead | mxeCplTail | mxeErr | mxeSeq | mxeRmask0 | mxeRmask1 | mxeRmask2 
  | mxeRmask3 | mxeBusyLo | mxeBusyHi | mxeLoadstallLo | mxeLoadstallHi | mxeStarveLo | mxeStarveHi 
  | cluMxeStagger | mxeAccStatus | mxeGprodLo | mxeGprodHi | mxeGblk | mxeSpill | mxeConvStatus | mxeSeedLo 
  | mxeSeedHi | vxeCtrl | vxeStatus | vxeCplBase | vxeCplHead | vxeCplTail | vxeErr | vxeFlags | vxeSeq 
  | vxeBusyLo | vxeBusyHi | strCtrl | strStatus | strCplBase | strCplHead | strCplTail | strRingBase 
  | strRingCfg | strRingFill | strTokenBase | strResume | strErr | strSeq | strBytesLo | strBytesHi | xltCtrl 
  | xltStatus | xltInval | xltRootLo | xltRootHi | xltMiss | xltFault | drlStatus | drlBytesLo | drlBytesHi 
  | drlMask | cluScCfg | tlyCtrl | tlyStatus | tlyRemoteLost | tlyRemoteDiscard | tlyPollwait | tlyValue 
  | drmStatus | drmFenced | drmMapout | drmRetire | drmTemp | drmScrub | drmCeLimit | drmSpread 
  | drmLocalBase | drmLocalSize | drmUeLastLine | drmUeLastCh | drmCe | drmUe | supSrvSlots | supSrvQueued 
  | supSrvAdmit | supSrvCancel | supSrvReissue | supSrvEmpty | supSrvStepLo | supSrvStepHi | drlDigExp 
  | drlDigRes | drlDigCtrl | drlDigStatus | drlDigLenLo | drlDigLenHi | drlDigBytesLo | drlDigBytesHi 
  | supWsFill | supWsEvict | supWsMismatch | supWsSuspect | supWsScrub | supTurnSel | supTurnState 
  | supPolicyVer | supDrainVer | supDrainRefs | supTurnCount | supTurnForced | supTurnAbandon | supTurnLastUs 
  | supSsSeqLo | supSsSeqHi | supSsCap | supSsOverwrite | supSsRewards | supSsMixed | supSsUnread 
  | thrCollOpen | thrCollClosed | thrCollEarly | thrCollGleaned | thrCollDropped | thrCollTimeout 
  | thrCollSlow | thrMoeOverflow | thrCollCtrl | thrCtrl | thrStatus | thrShards | thrLagging | thrStepLo 
  | thrStepHi | thrUpdDone | thrRedo | thrJrnlSent | thrJrnlUnack | thrSketchUsed | thrPoolFree | thrPoolWait 
  | nwtRisk | nwtCompA | nwtCompB | nwtThresh | nwtState | nwtUncovered | nwtSecuredLag | nwtEclipses 
  | nwtHandovers | nwtSuspects | nwtFencings | nwtTakeovers | nwtCheck | nwtFallowCore | nwtFallowClu 
  | nwtFallowMisc | nwtLevel | supSvcConn | supSvcSess | supSvcRx | supSvcReject | supSvcAuthfail 
  | supSvcExpired | supSvcResent | frwGrpStatus | frwGrpReplay | frwGrpCrc | frwGrpRetrain | frwGrpHbmiss 
  | frwRoute | frwCtrl | ethPortStatus | ethPortFecCe | ethPortFecUe | pciPortStatus | pciPortTimeout 
  | mgtI3c | mgtSmb | bcnStatus | bcnReads | supState | supSafeItem | supFwState | supFwVerActive 
  | supFwVerFallback | supFuseSvn | supCfgVer | supStagePages | supStartMs | supStarts | cluShadow 
  | thrShadow | pstNowLo | pstNowHi | pstStatus | pstOffset | pstSetSec | pstSetCtrl | pstPulses | pstGlitch 
  | pstSteps | pstHoldover | almStatus | almSeq | almMerged | almTorn | almPinSeq | pwrStatus | pwrVin 
  | pwrIin | pwrPin | pwrCap | pwrWarn | pwrCapSteps | pwrAclk | pwrDieTemp 
  deriving DecidableEq, Repr

/-- The register tables. DESIGN CHOICE: log entries 4, 5. -/
def RegId.spec : RegId → RegSpec
  -- SUP_DEVICE_ID (R3)
  | .supDeviceId => ⟨0, 0x0, [], [⟨31, 0, .ro, 1264157024⟩]⟩
  -- SUP_REVISION (R3)
  | .supRevision => ⟨0, 0x4, [], [⟨15, 8, .ro, 66⟩, ⟨7, 0, .ro, 1⟩]⟩
  -- SUP_SERIAL_0 (R3)
  | .supSerial0 => ⟨0, 0x10, [], [⟨31, 0, .ro, 0⟩]⟩
  -- SUP_SERIAL_1 (R3)
  | .supSerial1 => ⟨0, 0x14, [], [⟨31, 0, .ro, 0⟩]⟩
  -- SUP_SERIAL_2 (R3)
  | .supSerial2 => ⟨0, 0x18, [], [⟨31, 0, .ro, 0⟩]⟩
  -- SUP_SERIAL_3 (R3)
  | .supSerial3 => ⟨0, 0x1C, [], [⟨31, 0, .ro, 0⟩]⟩
  -- MXE_CTRL (R61)
  | .mxeCtrl => ⟨2, 0x0, [], [⟨2, 2, .wo, 0⟩, ⟨1, 1, .wo, 0⟩, ⟨0, 0, .rw, 1⟩]⟩
  -- MXE_STATUS (R61)
  | .mxeStatus => ⟨2, 0x4, [], [⟨19, 16, .ro, 0⟩, ⟨14, 14, .ro, 0⟩, ⟨13, 13, .ro, 0⟩, ⟨12, 12, .ro, 0⟩, ⟨11, 11, .ro, 0⟩, ⟨10, 8, .ro, 0⟩, ⟨7, 4, .ro, 0⟩, ⟨3, 0, .ro, 0⟩]⟩
  -- MXE_CONV_BASE (R61)
  | .mxeConvBase => ⟨2, 0x8, [], [⟨22, 11, .rwi, 4086⟩]⟩
  -- MXE_CPL_BASE (R61)
  | .mxeCplBase => ⟨2, 0xC, [], [⟨22, 6, .rwi, 130784⟩]⟩
  -- MXE_CPL_HEAD (R61)
  | .mxeCplHead => ⟨2, 0x10, [], [⟨4, 0, .rw, 0⟩]⟩
  -- MXE_CPL_TAIL (R61)
  | .mxeCplTail => ⟨2, 0x14, [], [⟨4, 0, .ro, 0⟩]⟩
  -- MXE_ERR (R61)
  | .mxeErr => ⟨2, 0x18, [], [⟨15, 8, .ro, 0⟩, ⟨4, 4, .w1c, 0⟩, ⟨3, 3, .w1c, 0⟩, ⟨2, 2, .w1c, 0⟩, ⟨1, 1, .w1c, 0⟩, ⟨0, 0, .w1c, 0⟩]⟩
  -- MXE_SEQ (R61)
  | .mxeSeq => ⟨2, 0x1C, [], [⟨31, 0, .ro, 0⟩]⟩
  -- MXE_RMASK_0 (R61)
  | .mxeRmask0 => ⟨2, 0x20, [], [⟨31, 0, .rw, 0⟩]⟩
  -- MXE_RMASK_1 (R61)
  | .mxeRmask1 => ⟨2, 0x24, [], [⟨31, 0, .rw, 0⟩]⟩
  -- MXE_RMASK_2 (R61)
  | .mxeRmask2 => ⟨2, 0x28, [], [⟨31, 0, .rw, 0⟩]⟩
  -- MXE_RMASK_3 (R61)
  | .mxeRmask3 => ⟨2, 0x2C, [], [⟨31, 0, .rw, 0⟩]⟩
  -- MXE_BUSY_LO (R61)
  | .mxeBusyLo => ⟨2, 0x40, [], [⟨31, 0, .ro, 0⟩]⟩
  -- MXE_BUSY_HI (R61)
  | .mxeBusyHi => ⟨2, 0x44, [], [⟨31, 31, .w1c, 0⟩, ⟨15, 0, .ro, 0⟩]⟩
  -- MXE_LOADSTALL_LO (R61)
  | .mxeLoadstallLo => ⟨2, 0x48, [], [⟨31, 0, .ro, 0⟩]⟩
  -- MXE_LOADSTALL_HI (R61)
  | .mxeLoadstallHi => ⟨2, 0x4C, [], [⟨31, 31, .w1c, 0⟩, ⟨15, 0, .ro, 0⟩]⟩
  -- MXE_STARVE_LO (R61)
  | .mxeStarveLo => ⟨2, 0x50, [], [⟨31, 0, .ro, 0⟩]⟩
  -- MXE_STARVE_HI (R61)
  | .mxeStarveHi => ⟨2, 0x54, [], [⟨31, 31, .w1c, 0⟩, ⟨15, 0, .ro, 0⟩]⟩
  -- CLU_MXE_STAGGER (R63)
  | .cluMxeStagger => ⟨1, 0x100, [], [⟨0, 0, .rws, 1⟩]⟩
  -- MXE_ACC_STATUS (R82)
  | .mxeAccStatus => ⟨2, 0x60, [], [⟨15, 12, .ro, 0⟩, ⟨11, 8, .ro, 0⟩, ⟨7, 4, .ro, 0⟩, ⟨3, 0, .ro, 0⟩]⟩
  -- MXE_GPROD_g_LO (R82)
  | .mxeGprodLo => ⟨2, 0x70, [(4, 0x8)], [⟨31, 0, .ro, 0⟩]⟩
  -- MXE_GPROD_g_HI (R82)
  | .mxeGprodHi => ⟨2, 0x74, [(4, 0x8)], [⟨31, 31, .w1c, 0⟩, ⟨15, 0, .ro, 0⟩]⟩
  -- MXE_GBLK_g (R82)
  | .mxeGblk => ⟨2, 0x90, [(4, 0x4)], [⟨31, 0, .ro, 0⟩]⟩
  -- MXE_SPILL_g (R82)
  | .mxeSpill => ⟨2, 0xA0, [(4, 0x4)], [⟨22, 17, .rwi, 0⟩, ⟨4, 0, .rwi, 0⟩]⟩
  -- MXE_CONV_STATUS (R107)
  | .mxeConvStatus => ⟨2, 0xC0, [], [⟨6, 6, .w1c, 0⟩, ⟨5, 5, .w1c, 0⟩, ⟨4, 4, .w1c, 0⟩, ⟨3, 3, .w1c, 0⟩, ⟨2, 2, .w1c, 0⟩, ⟨1, 1, .w1c, 0⟩, ⟨0, 0, .w1c, 0⟩]⟩
  -- MXE_SEED_LO (R107)
  | .mxeSeedLo => ⟨2, 0xC8, [], [⟨31, 0, .rwi, 0⟩]⟩
  -- MXE_SEED_HI (R107)
  | .mxeSeedHi => ⟨2, 0xCC, [], [⟨31, 0, .rwi, 0⟩]⟩
  -- VXE_CTRL (R137)
  | .vxeCtrl => ⟨3, 0x0, [], [⟨1, 1, .wo, 0⟩, ⟨0, 0, .rw, 1⟩]⟩
  -- VXE_STATUS (R137)
  | .vxeStatus => ⟨3, 0x4, [], [⟨31, 24, .ro, 0⟩, ⟨23, 20, .ro, 0⟩, ⟨13, 13, .ro, 0⟩, ⟨12, 12, .ro, 0⟩, ⟨7, 0, .ro, 0⟩]⟩
  -- VXE_CPL_BASE (R137)
  | .vxeCplBase => ⟨3, 0x8, [], [⟨22, 6, .rwi, 131056⟩]⟩
  -- VXE_CPL_HEAD (R137)
  | .vxeCplHead => ⟨3, 0xC, [], [⟨4, 0, .rw, 0⟩]⟩
  -- VXE_CPL_TAIL (R137)
  | .vxeCplTail => ⟨3, 0x10, [], [⟨4, 0, .ro, 0⟩]⟩
  -- VXE_ERR (R137)
  | .vxeErr => ⟨3, 0x14, [], [⟨15, 8, .ro, 0⟩, ⟨2, 2, .w1c, 0⟩, ⟨1, 1, .w1c, 0⟩, ⟨0, 0, .w1c, 0⟩]⟩
  -- VXE_FLAGS (R137)
  | .vxeFlags => ⟨3, 0x18, [], [⟨4, 4, .w1c, 0⟩, ⟨3, 3, .w1c, 0⟩, ⟨2, 2, .w1c, 0⟩, ⟨1, 1, .w1c, 0⟩, ⟨0, 0, .w1c, 0⟩]⟩
  -- VXE_SEQ (R137)
  | .vxeSeq => ⟨3, 0x1C, [], [⟨31, 0, .ro, 0⟩]⟩
  -- VXE_BUSY_LO (R137)
  | .vxeBusyLo => ⟨3, 0x40, [], [⟨31, 0, .ro, 0⟩]⟩
  -- VXE_BUSY_HI (R137)
  | .vxeBusyHi => ⟨3, 0x44, [], [⟨31, 31, .w1c, 0⟩, ⟨15, 0, .ro, 0⟩]⟩
  -- STR_CTRL (R171)
  | .strCtrl => ⟨4, 0x0, [(4, 0x80)], [⟨6, 4, .rwi, 0⟩, ⟨2, 2, .wo, 0⟩, ⟨1, 1, .wo, 0⟩, ⟨0, 0, .rw, 1⟩]⟩
  -- STR_STATUS (R171)
  | .strStatus => ⟨4, 0x4, [(4, 0x80)], [⟨27, 24, .ro, 0⟩, ⟨20, 16, .ro, 0⟩, ⟨12, 12, .ro, 0⟩, ⟨11, 8, .ro, 0⟩, ⟨3, 0, .ro, 0⟩]⟩
  -- STR_CPL_BASE (R171)
  | .strCplBase => ⟨4, 0x8, [(4, 0x80)], [⟨22, 6, .rwi, 130720⟩]⟩
  -- STR_CPL_HEAD (R171)
  | .strCplHead => ⟨4, 0xC, [(4, 0x80)], [⟨4, 0, .rw, 0⟩]⟩
  -- STR_CPL_TAIL (R171)
  | .strCplTail => ⟨4, 0x10, [(4, 0x80)], [⟨4, 0, .ro, 0⟩]⟩
  -- STR_RING_BASE (R171)
  | .strRingBase => ⟨4, 0x14, [(4, 0x80)], [⟨22, 6, .rwi, 0⟩]⟩
  -- STR_RING_CFG (R171)
  | .strRingCfg => ⟨4, 0x18, [(4, 0x80)], [⟨22, 16, .rwi, 0⟩, ⟨15, 0, .rwi, 0⟩]⟩
  -- STR_RING_FILL (R171)
  | .strRingFill => ⟨4, 0x1C, [(4, 0x80)], [⟨15, 0, .ro, 0⟩]⟩
  -- STR_TOKEN_BASE (R171)
  | .strTokenBase => ⟨4, 0x20, [(4, 0x80)], [⟨22, 8, .rwi, 32676⟩]⟩
  -- STR_RESUME (R171)
  | .strResume => ⟨4, 0x24, [(4, 0x80)], [⟨22, 6, .wo, 0⟩]⟩
  -- STR_ERR (R171)
  | .strErr => ⟨4, 0x28, [(4, 0x80)], [⟨15, 8, .ro, 0⟩, ⟨3, 3, .w1c, 0⟩, ⟨2, 2, .w1c, 0⟩, ⟨1, 1, .w1c, 0⟩, ⟨0, 0, .w1c, 0⟩]⟩
  -- STR_SEQ (R171)
  | .strSeq => ⟨4, 0x2C, [(4, 0x80)], [⟨31, 0, .ro, 0⟩]⟩
  -- STR_BYTES_LO (R171)
  | .strBytesLo => ⟨4, 0x30, [(4, 0x80)], [⟨31, 0, .ro, 0⟩]⟩
  -- STR_BYTES_HI (R171)
  | .strBytesHi => ⟨4, 0x34, [(4, 0x80)], [⟨31, 31, .w1c, 0⟩, ⟨15, 0, .ro, 0⟩]⟩
  -- XLT_CTRL (R172)
  | .xltCtrl => ⟨6, 0x0, [], [⟨0, 0, .rwi, 0⟩]⟩
  -- XLT_STATUS (R172)
  | .xltStatus => ⟨6, 0x4, [], [⟨0, 0, .ro, 0⟩]⟩
  -- XLT_INVAL (R172)
  | .xltInval => ⟨6, 0x8, [], [⟨8, 8, .wo, 0⟩, ⟨2, 0, .wo, 0⟩]⟩
  -- XLT_ROOT_n_LO (R172)
  | .xltRootLo => ⟨6, 0x10, [(8, 0x8)], [⟨31, 12, .rwi, 0⟩]⟩
  -- XLT_ROOT_n_HI (R172)
  | .xltRootHi => ⟨6, 0x14, [(8, 0x8)], [⟨11, 0, .rwi, 0⟩]⟩
  -- XLT_MISS (R172)
  | .xltMiss => ⟨6, 0x60, [], [⟨31, 0, .ro, 0⟩]⟩
  -- XLT_FAULT (R172)
  | .xltFault => ⟨6, 0x64, [], [⟨31, 0, .ro, 0⟩]⟩
  -- DRL_STATUS (R173)
  | .drlStatus => ⟨8, 0x0, [], [⟨3, 0, .ro, 0⟩]⟩
  -- DRL_BYTES_LO (R173)
  | .drlBytesLo => ⟨8, 0x8, [], [⟨31, 0, .ro, 0⟩]⟩
  -- DRL_BYTES_HI (R173)
  | .drlBytesHi => ⟨8, 0xC, [], [⟨31, 31, .w1c, 0⟩, ⟨15, 0, .ro, 0⟩]⟩
  -- DRL_MASK_n_w (R173)
  | .drlMask => ⟨8, 0x100, [(32, 0x10), (4, 0x4)], [⟨31, 0, .rw, 0⟩]⟩
  -- CLU_SC_CFG (R174)
  | .cluScCfg => ⟨1, 0x110, [], [⟨4, 0, .rwi, 0⟩]⟩
  -- TLY_CTRL (R194)
  | .tlyCtrl => ⟨5, 0x0, [], [⟨0, 0, .wo, 0⟩]⟩
  -- TLY_STATUS (R194)
  | .tlyStatus => ⟨5, 0x4, [], [⟨8, 0, .ro, 0⟩]⟩
  -- TLY_REMOTE_LOST (R194)
  | .tlyRemoteLost => ⟨5, 0x10, [], [⟨31, 0, .ro, 0⟩]⟩
  -- TLY_REMOTE_DISCARD (R194)
  | .tlyRemoteDiscard => ⟨5, 0x14, [], [⟨31, 0, .ro, 0⟩]⟩
  -- TLY_POLLWAIT (R194)
  | .tlyPollwait => ⟨5, 0x18, [], [⟨31, 0, .ro, 0⟩]⟩
  -- TLY_VALUE_t (R194)
  | .tlyValue => ⟨5, 0x1000, [(1024, 0x4)], [⟨31, 0, .rw, 0⟩]⟩
  -- DRM_STATUS (R227)
  | .drmStatus => ⟨7, 0x0, [], [⟨31, 16, .ro, 0⟩, ⟨11, 11, .ro, 0⟩, ⟨10, 10, .ro, 0⟩, ⟨9, 8, .ro, 0⟩, ⟨7, 6, .ro, 0⟩]⟩
  -- DRM_FENCED (R227)
  | .drmFenced => ⟨7, 0x4, [], [⟨15, 0, .ro, 0⟩]⟩
  -- DRM_MAPOUT (R227)
  | .drmMapout => ⟨7, 0x8, [], [⟨31, 16, .w1c, 0⟩, ⟨15, 0, .ro, 0⟩]⟩
  -- DRM_RETIRE (R227)
  | .drmRetire => ⟨7, 0xC, [], [⟨31, 16, .ro, 0⟩, ⟨12, 0, .ro, 0⟩]⟩
  -- DRM_TEMP (R227)
  | .drmTemp => ⟨7, 0x10, [], [⟨19, 16, .ro, 0⟩, ⟨15, 0, .ro, 0⟩]⟩
  -- DRM_SCRUB (R227)
  | .drmScrub => ⟨7, 0x18, [], [⟨7, 0, .rw, 24⟩]⟩
  -- DRM_CE_LIMIT (R227)
  | .drmCeLimit => ⟨7, 0x1C, [], [⟨31, 0, .rw, 0⟩]⟩
  -- DRM_SPREAD (R227)
  | .drmSpread => ⟨7, 0x20, [], [⟨10, 0, .ro, 0⟩]⟩
  -- DRM_LOCAL_BASE (R227)
  | .drmLocalBase => ⟨7, 0x24, [], [⟨31, 0, .ro, 0⟩]⟩
  -- DRM_LOCAL_SIZE (R227)
  | .drmLocalSize => ⟨7, 0x28, [], [⟨31, 0, .ro, 0⟩]⟩
  -- DRM_UE_LAST_LINE (R227)
  | .drmUeLastLine => ⟨7, 0x30, [], [⟨24, 0, .ro, 0⟩]⟩
  -- DRM_UE_LAST_CH (R227)
  | .drmUeLastCh => ⟨7, 0x34, [], [⟨7, 0, .ro, 0⟩]⟩
  -- DRM_CE_i (R227)
  | .drmCe => ⟨7, 0x100, [(16, 0x4)], [⟨31, 0, .ro, 0⟩]⟩
  -- DRM_UE_i (R227)
  | .drmUe => ⟨7, 0x140, [(16, 0x4)], [⟨31, 0, .ro, 0⟩]⟩
  -- SUP_SRV_SLOTS (R288)
  | .supSrvSlots => ⟨0, 0x200, [], [⟨14, 0, .ro, 0⟩]⟩
  -- SUP_SRV_QUEUED (R288)
  | .supSrvQueued => ⟨0, 0x204, [], [⟨16, 0, .ro, 0⟩]⟩
  -- SUP_SRV_ADMIT (R288)
  | .supSrvAdmit => ⟨0, 0x208, [], [⟨31, 0, .ro, 0⟩]⟩
  -- SUP_SRV_CANCEL (R288)
  | .supSrvCancel => ⟨0, 0x20C, [], [⟨31, 0, .ro, 0⟩]⟩
  -- SUP_SRV_REISSUE (R288)
  | .supSrvReissue => ⟨0, 0x210, [], [⟨31, 0, .ro, 0⟩]⟩
  -- SUP_SRV_EMPTY (R288)
  | .supSrvEmpty => ⟨0, 0x214, [], [⟨31, 0, .ro, 0⟩]⟩
  -- SUP_SRV_STEP_LO (R288)
  | .supSrvStepLo => ⟨0, 0x218, [], [⟨31, 0, .ro, 0⟩]⟩
  -- SUP_SRV_STEP_HI (R288)
  | .supSrvStepHi => ⟨0, 0x21C, [], [⟨31, 0, .ro, 0⟩]⟩
  -- DRL_DIG_n_EXP_w (R306)
  | .drlDigExp => ⟨8, 0x400, [(64, 0x100), (16, 0x4)], [⟨31, 0, .rwi, 0⟩]⟩
  -- DRL_DIG_n_RES_w (R306)
  | .drlDigRes => ⟨8, 0x440, [(64, 0x100), (16, 0x4)], [⟨31, 0, .ro, 0⟩]⟩
  -- DRL_DIG_n_CTRL (R306)
  | .drlDigCtrl => ⟨8, 0x480, [(64, 0x100)], [⟨2, 1, .rwi, 0⟩, ⟨0, 0, .wo, 0⟩]⟩
  -- DRL_DIG_n_STATUS (R306)
  | .drlDigStatus => ⟨8, 0x484, [(64, 0x100)], [⟨3, 3, .ro, 0⟩, ⟨2, 2, .ro, 0⟩, ⟨1, 1, .ro, 0⟩, ⟨0, 0, .ro, 0⟩]⟩
  -- DRL_DIG_n_LEN_LO (R306)
  | .drlDigLenLo => ⟨8, 0x488, [(64, 0x100)], [⟨31, 0, .rwi, 0⟩]⟩
  -- DRL_DIG_n_LEN_HI (R306)
  | .drlDigLenHi => ⟨8, 0x48C, [(64, 0x100)], [⟨15, 0, .rwi, 0⟩]⟩
  -- DRL_DIG_n_BYTES_LO (R306)
  | .drlDigBytesLo => ⟨8, 0x490, [(64, 0x100)], [⟨31, 0, .ro, 0⟩]⟩
  -- DRL_DIG_n_BYTES_HI (R306)
  | .drlDigBytesHi => ⟨8, 0x494, [(64, 0x100)], [⟨15, 0, .ro, 0⟩]⟩
  -- SUP_WS_FILL (R307)
  | .supWsFill => ⟨0, 0x240, [], [⟨31, 0, .ro, 0⟩]⟩
  -- SUP_WS_EVICT (R307)
  | .supWsEvict => ⟨0, 0x244, [], [⟨31, 0, .ro, 0⟩]⟩
  -- SUP_WS_MISMATCH (R307)
  | .supWsMismatch => ⟨0, 0x248, [], [⟨31, 0, .ro, 0⟩]⟩
  -- SUP_WS_SUSPECT (R307)
  | .supWsSuspect => ⟨0, 0x24C, [], [⟨31, 0, .ro, 0⟩]⟩
  -- SUP_WS_SCRUB (R307)
  | .supWsScrub => ⟨0, 0x250, [], [⟨15, 0, .rw, 60⟩]⟩
  -- SUP_TURN_SEL (R334)
  | .supTurnSel => ⟨0, 0x280, [], [⟨15, 0, .rw, 0⟩]⟩
  -- SUP_TURN_STATE (R334)
  | .supTurnState => ⟨0, 0x284, [], [⟨8, 8, .ro, 0⟩, ⟨2, 0, .ro, 0⟩]⟩
  -- SUP_POLICY_VER (R334)
  | .supPolicyVer => ⟨0, 0x288, [], [⟨31, 0, .ro, 0⟩]⟩
  -- SUP_DRAIN_VER (R334)
  | .supDrainVer => ⟨0, 0x28C, [], [⟨31, 0, .ro, 0⟩]⟩
  -- SUP_DRAIN_REFS (R334)
  | .supDrainRefs => ⟨0, 0x290, [], [⟨31, 0, .ro, 0⟩]⟩
  -- SUP_TURN_COUNT (R334)
  | .supTurnCount => ⟨0, 0x294, [], [⟨31, 0, .ro, 0⟩]⟩
  -- SUP_TURN_FORCED (R334)
  | .supTurnForced => ⟨0, 0x298, [], [⟨31, 0, .ro, 0⟩]⟩
  -- SUP_TURN_ABANDON (R334)
  | .supTurnAbandon => ⟨0, 0x29C, [], [⟨31, 0, .ro, 0⟩]⟩
  -- SUP_TURN_LAST_US (R334)
  | .supTurnLastUs => ⟨0, 0x2A0, [], [⟨31, 0, .ro, 0⟩]⟩
  -- SUP_SS_SEQ_LO (R335)
  | .supSsSeqLo => ⟨0, 0x2C0, [], [⟨31, 0, .ro, 0⟩]⟩
  -- SUP_SS_SEQ_HI (R335)
  | .supSsSeqHi => ⟨0, 0x2C4, [], [⟨31, 0, .ro, 0⟩]⟩
  -- SUP_SS_CAP (R335)
  | .supSsCap => ⟨0, 0x2C8, [], [⟨31, 0, .ro, 0⟩]⟩
  -- SUP_SS_OVERWRITE (R335)
  | .supSsOverwrite => ⟨0, 0x2CC, [], [⟨31, 0, .ro, 0⟩]⟩
  -- SUP_SS_REWARDS (R335)
  | .supSsRewards => ⟨0, 0x2D0, [], [⟨31, 0, .ro, 0⟩]⟩
  -- SUP_SS_MIXED (R335)
  | .supSsMixed => ⟨0, 0x2D4, [], [⟨31, 0, .ro, 0⟩]⟩
  -- SUP_SS_UNREAD (R335)
  | .supSsUnread => ⟨0, 0x2D8, [], [⟨31, 0, .ro, 0⟩]⟩
  -- THR_COLL_OPEN (R360)
  | .thrCollOpen => ⟨9, 0x800, [], [⟨12, 0, .ro, 0⟩]⟩
  -- THR_COLL_CLOSED (R360)
  | .thrCollClosed => ⟨9, 0x804, [], [⟨31, 0, .ro, 0⟩]⟩
  -- THR_COLL_EARLY (R360)
  | .thrCollEarly => ⟨9, 0x808, [], [⟨31, 0, .ro, 0⟩]⟩
  -- THR_COLL_GLEANED (R360)
  | .thrCollGleaned => ⟨9, 0x80C, [], [⟨31, 0, .ro, 0⟩]⟩
  -- THR_COLL_DROPPED (R360)
  | .thrCollDropped => ⟨9, 0x810, [], [⟨31, 0, .ro, 0⟩]⟩
  -- THR_COLL_TIMEOUT (R360)
  | .thrCollTimeout => ⟨9, 0x814, [], [⟨31, 0, .ro, 0⟩]⟩
  -- THR_COLL_SLOW (R360)
  | .thrCollSlow => ⟨9, 0x818, [], [⟨12, 0, .ro, 0⟩]⟩
  -- THR_MOE_OVERFLOW (R360)
  | .thrMoeOverflow => ⟨9, 0x81C, [], [⟨31, 0, .ro, 0⟩]⟩
  -- THR_COLL_CTRL (R360)
  | .thrCollCtrl => ⟨9, 0x820, [], [⟨0, 0, .rws, 0⟩]⟩
  -- THR_CTRL (R389)
  | .thrCtrl => ⟨9, 0x0, [], [⟨1, 1, .rw, 0⟩, ⟨0, 0, .rw, 1⟩]⟩
  -- THR_STATUS (R389)
  | .thrStatus => ⟨9, 0x4, [], [⟨23, 8, .ro, 0⟩, ⟨2, 2, .ro, 0⟩, ⟨1, 1, .ro, 0⟩, ⟨0, 0, .ro, 0⟩]⟩
  -- THR_SHARDS (R389)
  | .thrShards => ⟨9, 0x8, [], [⟨31, 0, .ro, 0⟩]⟩
  -- THR_LAGGING (R389)
  | .thrLagging => ⟨9, 0xC, [], [⟨31, 0, .ro, 0⟩]⟩
  -- THR_STEP_LO (R389)
  | .thrStepLo => ⟨9, 0x10, [], [⟨31, 0, .ro, 0⟩]⟩
  -- THR_STEP_HI (R389)
  | .thrStepHi => ⟨9, 0x14, [], [⟨31, 0, .ro, 0⟩]⟩
  -- THR_UPD_DONE (R389)
  | .thrUpdDone => ⟨9, 0x18, [], [⟨31, 0, .ro, 0⟩]⟩
  -- THR_REDO (R389)
  | .thrRedo => ⟨9, 0x1C, [], [⟨31, 0, .ro, 0⟩]⟩
  -- THR_JRNL_SENT (R389)
  | .thrJrnlSent => ⟨9, 0x20, [], [⟨31, 0, .ro, 0⟩]⟩
  -- THR_JRNL_UNACK (R389)
  | .thrJrnlUnack => ⟨9, 0x24, [], [⟨31, 0, .ro, 0⟩]⟩
  -- THR_SKETCH_USED (R389)
  | .thrSketchUsed => ⟨9, 0x28, [], [⟨31, 0, .ro, 0⟩]⟩
  -- THR_POOL_FREE (R389)
  | .thrPoolFree => ⟨9, 0x2C, [], [⟨31, 0, .ro, 0⟩]⟩
  -- THR_POOL_WAIT (R389)
  | .thrPoolWait => ⟨9, 0x30, [], [⟨31, 0, .ro, 0⟩]⟩
  -- NWT_RISK (R420)
  | .nwtRisk => ⟨17, 0x0, [], [⟨15, 8, .ro, 0⟩, ⟨7, 0, .ro, 0⟩]⟩
  -- NWT_COMP_A (R420)
  | .nwtCompA => ⟨17, 0x4, [], [⟨31, 24, .ro, 0⟩, ⟨23, 16, .ro, 0⟩, ⟨15, 8, .ro, 0⟩, ⟨7, 0, .ro, 0⟩]⟩
  -- NWT_COMP_B (R420)
  | .nwtCompB => ⟨17, 0x8, [], [⟨7, 0, .ro, 0⟩]⟩
  -- NWT_THRESH (R420)
  | .nwtThresh => ⟨17, 0xC, [], [⟨15, 8, .ro, 224⟩, ⟨7, 0, .ro, 160⟩]⟩
  -- NWT_STATE (R420)
  | .nwtState => ⟨17, 0x10, [], [⟨3, 3, .ro, 0⟩, ⟨2, 2, .ro, 0⟩, ⟨1, 1, .ro, 0⟩, ⟨0, 0, .ro, 0⟩]⟩
  -- NWT_UNCOVERED (R420)
  | .nwtUncovered => ⟨17, 0x14, [], [⟨31, 0, .ro, 0⟩]⟩
  -- NWT_SECURED_LAG (R420)
  | .nwtSecuredLag => ⟨17, 0x18, [], [⟨31, 0, .ro, 0⟩]⟩
  -- NWT_ECLIPSES (R420)
  | .nwtEclipses => ⟨17, 0x20, [], [⟨31, 0, .ro, 0⟩]⟩
  -- NWT_HANDOVERS (R420)
  | .nwtHandovers => ⟨17, 0x24, [], [⟨31, 0, .ro, 0⟩]⟩
  -- NWT_SUSPECTS (R420)
  | .nwtSuspects => ⟨17, 0x28, [], [⟨31, 0, .ro, 0⟩]⟩
  -- NWT_FENCINGS (R420)
  | .nwtFencings => ⟨17, 0x2C, [], [⟨31, 0, .ro, 0⟩]⟩
  -- NWT_TAKEOVERS (R420)
  | .nwtTakeovers => ⟨17, 0x30, [], [⟨31, 0, .ro, 0⟩]⟩
  -- NWT_CHECK (R420)
  | .nwtCheck => ⟨17, 0x34, [], [⟨9, 9, .w1c, 0⟩, ⟨8, 8, .w1c, 0⟩, ⟨7, 0, .ro, 0⟩]⟩
  -- NWT_FALLOW_CORE_w (R420)
  | .nwtFallowCore => ⟨17, 0x40, [(4, 0x4)], [⟨31, 0, .ro, 0⟩]⟩
  -- NWT_FALLOW_CLU (R420)
  | .nwtFallowClu => ⟨17, 0x50, [], [⟨15, 0, .ro, 0⟩]⟩
  -- NWT_FALLOW_MISC (R420)
  | .nwtFallowMisc => ⟨17, 0x54, [], [⟨25, 18, .ro, 0⟩, ⟨17, 16, .ro, 0⟩, ⟨15, 12, .ro, 0⟩, ⟨11, 4, .ro, 0⟩, ⟨3, 0, .ro, 0⟩]⟩
  -- NWT_LEVEL (R420)
  | .nwtLevel => ⟨17, 0x58, [], [⟨1, 0, .ro, 0⟩]⟩
  -- SUP_SVC_CONN (R448)
  | .supSvcConn => ⟨0, 0x300, [], [⟨12, 0, .ro, 0⟩]⟩
  -- SUP_SVC_SESS (R448)
  | .supSvcSess => ⟨0, 0x304, [], [⟨12, 0, .ro, 0⟩]⟩
  -- SUP_SVC_RX (R448)
  | .supSvcRx => ⟨0, 0x308, [], [⟨31, 0, .ro, 0⟩]⟩
  -- SUP_SVC_REJECT (R448)
  | .supSvcReject => ⟨0, 0x30C, [], [⟨31, 0, .ro, 0⟩]⟩
  -- SUP_SVC_AUTHFAIL (R448)
  | .supSvcAuthfail => ⟨0, 0x310, [], [⟨31, 0, .ro, 0⟩]⟩
  -- SUP_SVC_EXPIRED (R448)
  | .supSvcExpired => ⟨0, 0x314, [], [⟨31, 0, .ro, 0⟩]⟩
  -- SUP_SVC_RESENT (R448)
  | .supSvcResent => ⟨0, 0x318, [], [⟨31, 0, .ro, 0⟩]⟩
  -- FRW_GRP_g_STATUS (R468)
  | .frwGrpStatus => ⟨10, 0x0, [(8, 0x40)], [⟨19, 16, .ro, 15⟩, ⟨15, 8, .ro, 0⟩, ⟨5, 4, .ro, 0⟩, ⟨2, 0, .ro, 0⟩]⟩
  -- FRW_GRP_g_REPLAY (R468)
  | .frwGrpReplay => ⟨10, 0x4, [(8, 0x40)], [⟨31, 0, .ro, 0⟩]⟩
  -- FRW_GRP_g_CRC (R468)
  | .frwGrpCrc => ⟨10, 0x8, [(8, 0x40)], [⟨31, 0, .ro, 0⟩]⟩
  -- FRW_GRP_g_RETRAIN (R468)
  | .frwGrpRetrain => ⟨10, 0xC, [(8, 0x40)], [⟨31, 0, .ro, 0⟩]⟩
  -- FRW_GRP_g_HBMISS (R468)
  | .frwGrpHbmiss => ⟨10, 0x10, [(8, 0x40)], [⟨31, 0, .ro, 0⟩]⟩
  -- FRW_ROUTE_p (R468)
  | .frwRoute => ⟨10, 0x200, [(9, 0x4)], [⟨3, 0, .rw, 15⟩]⟩
  -- FRW_CTRL (R468)
  | .frwCtrl => ⟨10, 0x300, [], [⟨0, 0, .rwi, 0⟩]⟩
  -- ETH_PORT_k_STATUS (R469)
  | .ethPortStatus => ⟨11, 0x0, [(8, 0x40)], [⟨7, 4, .ro, 0⟩, ⟨0, 0, .ro, 0⟩]⟩
  -- ETH_PORT_k_FEC_CE (R469)
  | .ethPortFecCe => ⟨11, 0x4, [(8, 0x40)], [⟨31, 0, .ro, 0⟩]⟩
  -- ETH_PORT_k_FEC_UE (R469)
  | .ethPortFecUe => ⟨11, 0x8, [(8, 0x40)], [⟨31, 0, .ro, 0⟩]⟩
  -- PCI_PORT_k_STATUS (R469)
  | .pciPortStatus => ⟨12, 0x0, [(4, 0x40)], [⟨23, 20, .ro, 0⟩, ⟨19, 16, .ro, 0⟩, ⟨15, 12, .ro, 0⟩, ⟨11, 8, .ro, 0⟩, ⟨7, 4, .ro, 0⟩, ⟨3, 3, .ro, 0⟩, ⟨2, 2, .ro, 0⟩, ⟨1, 1, .ro, 0⟩, ⟨0, 0, .ro, 0⟩]⟩
  -- PCI_PORT_k_TIMEOUT (R469)
  | .pciPortTimeout => ⟨12, 0x4, [(4, 0x40)], [⟨31, 0, .ro, 0⟩]⟩
  -- MGT_I3C (R470)
  | .mgtI3c => ⟨13, 0x0, [], [⟨15, 8, .ro, 0⟩, ⟨6, 0, .ro, 0⟩]⟩
  -- MGT_SMB (R470)
  | .mgtSmb => ⟨13, 0x4, [], [⟨15, 8, .ro, 0⟩, ⟨6, 0, .ro, 94⟩]⟩
  -- BCN_STATUS (R470)
  | .bcnStatus => ⟨14, 0x0, [], [⟨7, 0, .ro, 0⟩]⟩
  -- BCN_READS (R470)
  | .bcnReads => ⟨14, 0x4, [], [⟨31, 0, .ro, 0⟩]⟩
  -- SUP_STATE (R494)
  | .supState => ⟨0, 0x100, [], [⟨15, 8, .ro, 0⟩, ⟨2, 0, .ro, 1⟩]⟩
  -- SUP_SAFE_ITEM (R494)
  | .supSafeItem => ⟨0, 0x104, [], [⟨31, 0, .ro, 0⟩]⟩
  -- SUP_FW_STATE (R494)
  | .supFwState => ⟨0, 0x108, [], [⟨23, 16, .ro, 0⟩, ⟨15, 8, .ro, 0⟩, ⟨7, 7, .ro, 0⟩, ⟨6, 5, .ro, 0⟩, ⟨4, 4, .ro, 0⟩, ⟨3, 3, .ro, 0⟩, ⟨2, 0, .ro, 0⟩]⟩
  -- SUP_FW_VER_ACTIVE (R494)
  | .supFwVerActive => ⟨0, 0x10C, [], [⟨31, 0, .ro, 0⟩]⟩
  -- SUP_FW_VER_FALLBACK (R494)
  | .supFwVerFallback => ⟨0, 0x110, [], [⟨31, 0, .ro, 0⟩]⟩
  -- SUP_FUSE_SVN (R494)
  | .supFuseSvn => ⟨0, 0x114, [], [⟨6, 0, .ro, 0⟩]⟩
  -- SUP_CFG_VER (R494)
  | .supCfgVer => ⟨0, 0x118, [], [⟨31, 0, .ro, 0⟩]⟩
  -- SUP_STAGE_PAGES (R494)
  | .supStagePages => ⟨0, 0x11C, [], [⟨14, 0, .ro, 0⟩]⟩
  -- SUP_START_MS (R494)
  | .supStartMs => ⟨0, 0x120, [], [⟨31, 0, .ro, 0⟩]⟩
  -- SUP_STARTS (R494)
  | .supStarts => ⟨0, 0x124, [], [⟨31, 0, .ro, 0⟩]⟩
  -- CLU_SHADOW (R495)
  | .cluShadow => ⟨1, 0x120, [], [⟨2, 2, .ro, 1⟩, ⟨1, 1, .ro, 0⟩, ⟨0, 0, .wo, 0⟩]⟩
  -- THR_SHADOW (R496)
  | .thrShadow => ⟨9, 0x840, [], [⟨2, 2, .ro, 0⟩, ⟨1, 1, .ro, 0⟩, ⟨0, 0, .wo, 0⟩]⟩
  -- PST_NOW_LO (R503)
  | .pstNowLo => ⟨15, 0x0, [], [⟨31, 0, .ro, 0⟩]⟩
  -- PST_NOW_HI (R503)
  | .pstNowHi => ⟨15, 0x4, [], [⟨31, 0, .ro, 0⟩]⟩
  -- PST_STATUS (R503)
  | .pstStatus => ⟨15, 0x8, [], [⟨9, 9, .ro, 0⟩, ⟨8, 8, .ro, 0⟩, ⟨2, 0, .ro, 0⟩]⟩
  -- PST_OFFSET (R503)
  | .pstOffset => ⟨15, 0xC, [], [⟨31, 0, .ro, 0⟩]⟩
  -- PST_SET_SEC (R503)
  | .pstSetSec => ⟨15, 0x10, [], [⟨31, 0, .rw, 0⟩]⟩
  -- PST_SET_CTRL (R503)
  | .pstSetCtrl => ⟨15, 0x14, [], [⟨1, 1, .ro, 0⟩, ⟨0, 0, .wo, 0⟩]⟩
  -- PST_PULSES (R503)
  | .pstPulses => ⟨15, 0x20, [], [⟨31, 0, .ro, 0⟩]⟩
  -- PST_GLITCH (R503)
  | .pstGlitch => ⟨15, 0x24, [], [⟨31, 0, .ro, 0⟩]⟩
  -- PST_STEPS (R503)
  | .pstSteps => ⟨15, 0x28, [], [⟨31, 0, .ro, 0⟩]⟩
  -- PST_HOLDOVER (R503)
  | .pstHoldover => ⟨15, 0x2C, [], [⟨31, 0, .ro, 0⟩]⟩
  -- ALM_STATUS (R514)
  | .almStatus => ⟨16, 0x0, [], [⟨1, 1, .ro, 0⟩, ⟨0, 0, .ro, 0⟩]⟩
  -- ALM_SEQ (R514)
  | .almSeq => ⟨16, 0x4, [], [⟨31, 0, .ro, 0⟩]⟩
  -- ALM_MERGED (R514)
  | .almMerged => ⟨16, 0x8, [], [⟨31, 0, .ro, 0⟩]⟩
  -- ALM_TORN (R514)
  | .almTorn => ⟨16, 0xC, [], [⟨31, 0, .ro, 0⟩]⟩
  -- ALM_PIN_SEQ (R514)
  | .almPinSeq => ⟨16, 0x10, [], [⟨31, 0, .ro, 0⟩]⟩
  -- PWR_STATUS (R529)
  | .pwrStatus => ⟨18, 0x0, [], [⟨7, 7, .ro, 0⟩, ⟨6, 6, .ro, 0⟩, ⟨5, 5, .ro, 0⟩, ⟨4, 4, .ro, 0⟩, ⟨3, 3, .ro, 0⟩, ⟨2, 2, .ro, 0⟩, ⟨0, 0, .ro, 0⟩]⟩
  -- PWR_VIN (R529)
  | .pwrVin => ⟨18, 0x4, [], [⟨15, 0, .ro, 0⟩]⟩
  -- PWR_IIN (R529)
  | .pwrIin => ⟨18, 0x8, [], [⟨15, 0, .ro, 0⟩]⟩
  -- PWR_PIN (R529)
  | .pwrPin => ⟨18, 0xC, [], [⟨15, 0, .ro, 0⟩]⟩
  -- PWR_CAP (R529)
  | .pwrCap => ⟨18, 0x10, [], [⟨15, 0, .rw, 8000⟩]⟩
  -- PWR_WARN (R529)
  | .pwrWarn => ⟨18, 0x14, [], [⟨31, 0, .ro, 0⟩]⟩
  -- PWR_CAP_STEPS (R529)
  | .pwrCapSteps => ⟨18, 0x18, [], [⟨31, 0, .ro, 0⟩]⟩
  -- PWR_ACLK_c (R529)
  | .pwrAclk => ⟨18, 0x40, [(16, 0x4)], [⟨18, 16, .ro, 0⟩, ⟨14, 12, .ro, 0⟩, ⟨10, 8, .ro, 0⟩, ⟨6, 4, .ro, 0⟩, ⟨2, 0, .rw, 0⟩]⟩
  -- PWR_DIE_TEMP_c (R529)
  | .pwrDieTemp => ⟨18, 0x80, [(16, 0x4)], [⟨15, 0, .ro, 0⟩]⟩

/-- Every register, block by block. -/
def regsOfBlock0 : List RegId :=
  [.supDeviceId, .supRevision, .supSerial0, .supSerial1, .supSerial2, .supSerial3, .supSrvSlots, .supSrvQueued, .supSrvAdmit, .supSrvCancel, .supSrvReissue, .supSrvEmpty, .supSrvStepLo, .supSrvStepHi, .supWsFill, .supWsEvict, .supWsMismatch, .supWsSuspect, .supWsScrub, .supTurnSel, .supTurnState, .supPolicyVer, .supDrainVer, .supDrainRefs, .supTurnCount, .supTurnForced, .supTurnAbandon, .supTurnLastUs, .supSsSeqLo, .supSsSeqHi, .supSsCap, .supSsOverwrite, .supSsRewards, .supSsMixed, .supSsUnread, .supSvcConn, .supSvcSess, .supSvcRx, .supSvcReject, .supSvcAuthfail, .supSvcExpired, .supSvcResent, .supState, .supSafeItem, .supFwState, .supFwVerActive, .supFwVerFallback, .supFuseSvn, .supCfgVer, .supStagePages, .supStartMs, .supStarts]

def regsOfBlock1 : List RegId :=
  [.cluMxeStagger, .cluScCfg, .cluShadow]

def regsOfBlock2 : List RegId :=
  [.mxeCtrl, .mxeStatus, .mxeConvBase, .mxeCplBase, .mxeCplHead, .mxeCplTail, .mxeErr, .mxeSeq, .mxeRmask0, .mxeRmask1, .mxeRmask2, .mxeRmask3, .mxeBusyLo, .mxeBusyHi, .mxeLoadstallLo, .mxeLoadstallHi, .mxeStarveLo, .mxeStarveHi, .mxeAccStatus, .mxeGprodLo, .mxeGprodHi, .mxeGblk, .mxeSpill, .mxeConvStatus, .mxeSeedLo, .mxeSeedHi]

def regsOfBlock3 : List RegId :=
  [.vxeCtrl, .vxeStatus, .vxeCplBase, .vxeCplHead, .vxeCplTail, .vxeErr, .vxeFlags, .vxeSeq, .vxeBusyLo, .vxeBusyHi]

def regsOfBlock4 : List RegId :=
  [.strCtrl, .strStatus, .strCplBase, .strCplHead, .strCplTail, .strRingBase, .strRingCfg, .strRingFill, .strTokenBase, .strResume, .strErr, .strSeq, .strBytesLo, .strBytesHi]

def regsOfBlock5 : List RegId :=
  [.tlyCtrl, .tlyStatus, .tlyRemoteLost, .tlyRemoteDiscard, .tlyPollwait, .tlyValue]

def regsOfBlock6 : List RegId :=
  [.xltCtrl, .xltStatus, .xltInval, .xltRootLo, .xltRootHi, .xltMiss, .xltFault]

def regsOfBlock7 : List RegId :=
  [.drmStatus, .drmFenced, .drmMapout, .drmRetire, .drmTemp, .drmScrub, .drmCeLimit, .drmSpread, .drmLocalBase, .drmLocalSize, .drmUeLastLine, .drmUeLastCh, .drmCe, .drmUe]

def regsOfBlock8 : List RegId :=
  [.drlStatus, .drlBytesLo, .drlBytesHi, .drlMask, .drlDigExp, .drlDigRes, .drlDigCtrl, .drlDigStatus, .drlDigLenLo, .drlDigLenHi, .drlDigBytesLo, .drlDigBytesHi]

def regsOfBlock9 : List RegId :=
  [.thrCollOpen, .thrCollClosed, .thrCollEarly, .thrCollGleaned, .thrCollDropped, .thrCollTimeout, .thrCollSlow, .thrMoeOverflow, .thrCollCtrl, .thrCtrl, .thrStatus, .thrShards, .thrLagging, .thrStepLo, .thrStepHi, .thrUpdDone, .thrRedo, .thrJrnlSent, .thrJrnlUnack, .thrSketchUsed, .thrPoolFree, .thrPoolWait, .thrShadow]

def regsOfBlock10 : List RegId :=
  [.frwGrpStatus, .frwGrpReplay, .frwGrpCrc, .frwGrpRetrain, .frwGrpHbmiss, .frwRoute, .frwCtrl]

def regsOfBlock11 : List RegId :=
  [.ethPortStatus, .ethPortFecCe, .ethPortFecUe]

def regsOfBlock12 : List RegId :=
  [.pciPortStatus, .pciPortTimeout]

def regsOfBlock13 : List RegId :=
  [.mgtI3c, .mgtSmb]

def regsOfBlock14 : List RegId :=
  [.bcnStatus, .bcnReads]

def regsOfBlock15 : List RegId :=
  [.pstNowLo, .pstNowHi, .pstStatus, .pstOffset, .pstSetSec, .pstSetCtrl, .pstPulses, .pstGlitch, .pstSteps, .pstHoldover]

def regsOfBlock16 : List RegId :=
  [.almStatus, .almSeq, .almMerged, .almTorn, .almPinSeq]

def regsOfBlock17 : List RegId :=
  [.nwtRisk, .nwtCompA, .nwtCompB, .nwtThresh, .nwtState, .nwtUncovered, .nwtSecuredLag, .nwtEclipses, .nwtHandovers, .nwtSuspects, .nwtFencings, .nwtTakeovers, .nwtCheck, .nwtFallowCore, .nwtFallowClu, .nwtFallowMisc, .nwtLevel]

def regsOfBlock18 : List RegId :=
  [.pwrStatus, .pwrVin, .pwrIin, .pwrPin, .pwrCap, .pwrWarn, .pwrCapSteps, .pwrAclk, .pwrDieTemp]

/-- The registers that the block with this number holds (R29); none for an unassigned block. -/
def regsOfBlock : Nat → List RegId
  | 0 => regsOfBlock0
  | 1 => regsOfBlock1
  | 2 => regsOfBlock2
  | 3 => regsOfBlock3
  | 4 => regsOfBlock4
  | 5 => regsOfBlock5
  | 6 => regsOfBlock6
  | 7 => regsOfBlock7
  | 8 => regsOfBlock8
  | 9 => regsOfBlock9
  | 10 => regsOfBlock10
  | 11 => regsOfBlock11
  | 12 => regsOfBlock12
  | 13 => regsOfBlock13
  | 14 => regsOfBlock14
  | 15 => regsOfBlock15
  | 16 => regsOfBlock16
  | 17 => regsOfBlock17
  | 18 => regsOfBlock18
  | _ => []

/-- The decoding of a block number (R29); none where R29 marks it unassigned. -/
def blockKind (b : Nat) : Option BlockKind :=
  if b = 2 ∨ b = 3 ∨ b = 4 then some .core
  else if b = 1 ∨ b = 5 ∨ b = 6 ∨ b = 7 ∨ b = 8 then some .cluster
  else if b ≤ 18 then some .die else none

/-- A register access decoded: the register, its instance (cluster, core or 0) and its indices. -/
structure RegRef where
  id : RegId
  inst : Nat
  ix : List Nat
  deriving DecidableEq, Repr

/-- The indices under which an offset from the register's base names one of its instances. -/
def matchDims : List (Nat × Nat) → Nat → Option (List Nat)
  | [], 0 => some []
  | [], _ + 1 => none
  | (c, s) :: t, off =>
    let i := if s = 0 then 0 else min (off / s) (c - 1)
    match matchDims t (off - i * s) with
    | some l => some (i :: l)
    | none => none

/-- The first register of a list that lies at an offset of its block's instance. -/
def findIn (inst off : Nat) : List RegId → Option RegRef
  | [] => none
  | r :: t =>
    let sp := r.spec
    if sp.base ≤ off then
      match matchDims sp.dims (off - sp.base) with
      | some ix => some ⟨r, inst, ix⟩
      | none => findIn inst off t
    else findIn inst off t

/-- The register at an offset of the register region (R29), none at an unassigned address (R30). -/
def findReg (off : Nat) : Option RegRef :=
  let b := off / 2^24 % 256
  match blockKind b with
  | none => none
  | some .die => findIn 0 (off % 2^24) (regsOfBlock b)
  | some .cluster => findIn (off / 2^20 % 16) (off % 2^20) (regsOfBlock b)
  | some .core => findIn (off / 2^17 % 128) (off % 2^17) (regsOfBlock b)

/-- The offset of a register's instance in the register region (R29). -/
def RegRef.off (r : RegRef) : Nat :=
  let sp := r.id.spec
  let ins := match blockKind sp.block with
    | some .core => r.inst * 2^17
    | some .cluster => r.inst * 2^20
    | _ => 0
  sp.block * 2^24 + ins + sp.base + ((sp.dims.zip r.ix).map fun p => p.1.2 * p.2).sum

/-- The value a register's fields hold at reset. -/
def resetOfFields (fs : List Field) : Nat := (fs.map fun f => f.reset * 2^f.lo).sum

/-- The reset value of a register's instance. Units 0 to 3 of STR_CPL_BASE and STR_TOKEN_BASE differ (R171). -/
def RegRef.reset (r : RegRef) : Word :=
  let base := resetOfFields r.id.spec.fields
  let u := r.ix.headD 0
  BitVec.ofNat 32 <| match r.id with
    | .strCplBase => base + 8 * u * 2^6
    | .strTokenBase => base + u * 2^8
    | _ => base

/-- Bits hi down to lo of a number. -/
def bits (v hi lo : Nat) : Nat := v / 2^lo % 2^(hi + 1 - lo)

/-- A number with bits hi down to lo replaced. -/
def setBits (v hi lo x : Nat) : Nat :=
  v - bits v hi lo * 2^lo + (x % 2^(hi + 1 - lo)) * 2^lo

end Sys2Proof.Machine
end

