-- ==== Sys2Proof/Machine/State.lean ====
section
/-! DEFINITION. The state of the block as plain data: every register, memory, queue, mode and record that the spec
gives it, and the queue of waiting commands. -/

namespace Sys2Proof.Machine

/-! ### Matrix engine (chapters 2 to 4) -/

/-- A tile instruction in the queue: its 32 bytes, its SEQ, and whether the engine was idle at its push (R58). -/
structure TileIns where
  desc : List Byte
  seq : Word
  idle : Bool
  /-- the place of its push among the pushes and starts of stream descriptors (R296) -/
  issue : Nat := 0
  deriving DecidableEq, Repr

/-- An accumulator cell: the 8-byte image of R64 or R66, and its poison mark (R71). -/
structure Cell where
  img : DWord
  poison : Bool
  deriving DecidableEq, Repr

/-- A cell at the start of an accumulation: −0 (R68). -/
def Cell.fresh : Cell := ⟨0x2000000000000#64, false⟩
/-- An integer cell at the start of an accumulation. -/
def Cell.freshInt : Cell := ⟨0, false⟩

/-- An output tile's cells, row by row. -/
abbrev Cells := List (List Cell)

/-- An accumulation group (R44, R72 to R79). -/
structure Group where
  isOpen : Bool := false
  m : Nat := 0
  n : Nat := 0
  mode : Nat := 0
  split : Bool := false
  isInt : Bool := false
  /-- the banks held (R46) -/
  banks : List Nat := []
  /-- the cells of the current partial, or of the whole sum without SPLIT -/
  cells : Cells := []
  /-- n_b, and the blocks of the current partial (R73, R77) -/
  blocks : Nat := 0
  partBlocks : Nat := 0
  /-- partials closed, the effective slot count S, the spill area's BASE, and the occupied levels (R78, R79) -/
  closed : Nat := 0
  slots : Nat := 0
  spillBase : Nat := 0
  levels : List Bool := []
  /-- a closed partial whose merge is still running (R80) -/
  merging : Option Cells := none
  /-- the flags of MXE_ACC_STATUS, kept until the group is next opened (R82) -/
  longSum : Bool := false
  iwrap : Bool := false
  nan : Bool := false
  splitFull : Bool := false
  /-- how often the group has been opened, by which a draining sum knows whether the flags are still its own -/
  opens : Nat := 0
  deriving DecidableEq, Repr

/-- The tag of the stationary buffer (R38). -/
structure ATag where
  addr : Nat
  stride : Nat
  fmt : Nat
  ta : Bool
  m : Nat
  mode : Nat
  tileM : Nat
  tileK : Nat
  /-- the buffer's contents: the elements' encodings and poison, row by row -/
  buf : List (List (Nat × Bool))
  deriving DecidableEq, Repr

/-- A ring row taken by a matrix instruction: its bytes and the lines of it that are poisoned. -/
structure TakenRow where
  bytes : List Byte
  poisonLines : List Nat
  deriving DecidableEq, Repr

/-- The instruction that is running (R37): the fold's mode, its banks with the drain bank (R46), the output tiles still to
finish with the current one first, and how far the current one has come. -/
structure TileRun where
  ins : TileIns
  mode : Nat
  banks : List Nat
  drainBank : Bool
  tiles : List (Nat × Nat)
  /-- the current output tile has its bank and its cells -/
  begun : Bool := false
  /-- k steps entered into the current output tile -/
  kDone : Nat := 0
  /-- the A tile (m, k) that the instruction has loaded or kept -/
  hold : Option (Nat × Nat) := none
  loads : Nat := 0
  /-- the rows taken from the landing ring for the block being formed (R40) -/
  taken : List TakenRow := []
  /-- it waits on the landing ring (R53), on an earlier drain (R180), or on the load sequencer (R60), or has been granted
  the load that it waited for -/
  starved : Bool := false
  overlap : Bool := false
  staggerWait : Bool := false
  granted : Bool := false
  /-- the cycles of its waits so far: on the ring, and on drains and the sequencer -/
  starve : Nat := 0
  stall : Nat := 0
  /-- an operand line was poisoned (R52) -/
  metPoison : Bool := false
  deriving DecidableEq, Repr

/-- An output tile that drains: its first row and column, its group at close, its cells once no merge runs (R79, R80),
and the ROWMASK bits sampled at the start of its drain (R51). -/
structure DrainTile where
  m0 : Nat
  n0 : Nat
  group : Group
  final : Option Cells := none
  rmask : Option (BitVec 128) := none
  deriving DecidableEq, Repr

/-- The drains of a closing instruction (R47, R48, R50). -/
structure Drain where
  ins : TileIns
  conv : List Byte
  opened : Bool
  mode : Nat
  /-- output tiles are still to come -/
  more : Bool := false
  loads : Nat := 0
  cycles : Nat := 0
  longSum : Bool := false
  /-- an operand line of the instruction was poisoned (R52) -/
  metPoison : Bool := false
  banks : List Nat := []
  /-- the next instruction was in the queue as this one entered its last block (R48) -/
  mayOverlap : Bool := true
  /-- cycles of the last drain that no later instruction has covered (R61) -/
  uncovered : Nat := 0
  tiles : List DrainTile := []
  /-- the next row of the first remaining tile, while rows go to an egress queue -/
  row : Nat := 0
  poisonTiles : Nat := 0
  curPoison : Bool := false
  hist : List Nat := List.replicate 256 0
  /-- the drain has waited for a merge (R80), and for room in the egress queue, as it does while `egressWait` (R153) -/
  mergeWait : Bool := false
  waited : Bool := false
  egressWait : Bool := false
  deriving DecidableEq, Repr

/-- A completion that waits for a slot of a full ring, with its bytes, its status and its tally (R55). -/
structure HeldCpl where
  bytes : List Byte
  hist : List Byte
  status : Byte
  tally : Option (Nat × Nat)
  deriving DecidableEq, Repr

/-- What the engine still has to complete, in queue order: a drain, or a completion behind one. -/
inductive MxeOut where
  | drain (d : Drain)
  | ready (h : HeldCpl)
  deriving DecidableEq, Repr

/-- A hart that waits for room in a full queue, with its push (R144). -/
structure PushWait where
  hart : Nat
  desc : List Byte
  rd : Nat
  deriving DecidableEq, Repr

structure Mxe where
  queue : List TileIns := []
  waiters : List PushWait := []
  run : Option TileRun := none
  drains : List MxeOut := []
  /-- completions that stand behind the running instruction (R48) -/
  behind : List HeldCpl := []
  groups : List Group := List.replicate 4 {}
  tag : Option ATag := none
  head : BitVec 5 := 0
  tail : BitVec 5 := 0
  held : List HeldCpl := []
  seq : Word := 0
  deriving DecidableEq, Repr

/-! ### Vector engine (chapter 5) -/

/-- A lookup table (R122): X_MIN, INV_STEP and the 512 entries, as FP32 encodings. -/
structure VTable where
  xMin : Word
  invStep : Word
  y : List Word
  deriving DecidableEq, Repr

structure Vxe where
  queue : List TileIns := []
  waiters : List PushWait := []
  tables : List (Option VTable) := List.replicate 8 none
  head : BitVec 5 := 0
  tail : BitVec 5 := 0
  held : List HeldCpl := []
  seq : Word := 0
  deriving DecidableEq, Repr

/-! ### Stream units, drill and translation (chapter 6) -/

/-- A descriptor that a unit runs or holds halted (R153, R161). -/
structure StrRun where
  desc : List Byte
  seq : Word
  pers : Option Nat
  i : Nat
  j : Nat
  off : Nat
  bytes : Nat
  faults : Nat
  dropped : Nat
  /-- the destination lines written poisoned (R157) -/
  marks : List Nat
  poisonMet : Bool
  badRow : Bool
  /-- the multicast set still in the run (R166, R168); empty without MCAST -/
  set : List Nat
  /-- the cause of R160 while halted, the time of the fault, and whether the descriptor may go on -/
  halted : Option Nat
  faultAt : Nat
  faultVa : Nat
  /-- ring rows delivered by this run (R169) -/
  rows : Nat
  /-- the run's digest slot was finished by it, and bytes came beyond LEN (R297) -/
  digDone : Bool
  digBeyond : Bool
  /-- the place of the run's start among the pushes and starts of stream descriptors (R153, R155, R169) -/
  born : Nat := 0
  deriving DecidableEq, Repr

/-- A persistent slot (R164, R165): the descriptor of its last arming, its SEQ, and a re-arm that is held. -/
structure PersSlot where
  desc : List Byte
  seq : Word
  busy : Bool
  rearm : Option (List Byte)
  deriving DecidableEq, Repr

/-- A landing ring entry, oldest first (R169): a row in a slot of the ring, or a failure mark. `born` names the run that
delivered it, by its start. -/
inductive RingEnt where
  | row (slot born : Nat)
  | mark (born : Nat)
  deriving DecidableEq, Repr

/-- A row of the output pipeline in an egress queue (R94, R103). -/
structure EgressRow where
  bytes : List Byte
  poisonLines : List Nat
  deriving DecidableEq, Repr

structure StrUnit where
  queue : List TileIns := []
  waiters : List PushWait := []
  active : List (Option StrRun) := List.replicate 4 none
  pers : List (Option PersSlot) := List.replicate 4 none
  ring : List RingEnt := []
  ringNext : Nat := 0
  egress : List EgressRow := []
  head : BitVec 5 := 0
  tail : BitVec 5 := 0
  held : List HeldCpl := []
  seq : Word := 0
  deriving DecidableEq, Repr

/-- A core: its engines and stream units. -/
structure Core where
  mxe : Mxe := {}
  vxe : Vxe := {}
  str : List StrUnit := List.replicate 4 {}
  deriving DecidableEq, Repr

/-- A cached translation (R159): context, first page number at 64 KiB, size in 64 KiB pages, and the leaf. -/
structure TlbEnt where
  ctx : Nat
  page : Nat
  pages : Nat
  leaf : DWord
  deriving DecidableEq, Repr

/-- A report in a translation unit's fault queue (R161). -/
structure FaultRep where
  core : Nat
  unit : Nat
  slot : Nat
  ctx : Nat
  va : Nat
  cause : Nat
  deriving DecidableEq, Repr

/-- A page fill in progress (R301). -/
structure Fill where
  ctx : Nat
  va : Nat
  /-- the frame taken, the runs under an evicted translation that must have completed before it is reused (core, unit,
  start), and whether the read of the tier has been issued -/
  frame : Option Nat := none
  after : List (Nat × Nat × Nat) := []
  asked : Bool := false
  deriving DecidableEq, Repr

/-- A drill digest slot (R296, R297, R306). -/
structure DigestSlot where
  sponge : Sponge := Sponge.init
  absorbed : Nat := 0
  result : List Byte := []
  poisoned : Bool := false
  status : Nat := 0
  deriving DecidableEq, Repr

/-- A watch or a polling wait of a TLY.WAIT (R189, R193). -/
structure TallyWait where
  hart : Nat
  tally : Nat
  threshold : Word
  rd : Nat
  ref : DWord
  /-- a watch entry is held; otherwise the wait polls -/
  watch : Bool
  /-- the value that satisfied it -/
  got : Option Word
  /-- the target module of a remote wait -/
  remote : Option Nat
  deriving DecidableEq, Repr

/-- A watch that another module has placed (R191). -/
structure RemoteWatch where
  src : Nat
  tally : Nat
  threshold : Word
  tag : Nat
  /-- no watch entry was free: the wait polls (R193) -/
  polled : Bool
  deriving DecidableEq, Repr

structure Cluster where
  tlb : List TlbEnt := []
  invalBusy : Bool := false
  faults : List FaultRep := []
  fills : List Fill := []
  digests : SMap DigestSlot := []
  /-- CLU_MXE_STAGGER.AUTO in effect, and the committed snapshot (R482, R495) -/
  autoEff : Bool := true
  autoSnap : Option Bool := none
  /-- grants of the load sequencer's running window: a multicast set's mask and the core granted (R60) -/
  grants : List (Nat × Nat) := []
  /-- how often CLU_SC_CFG has taken effect (R151): a number above 0 selects the undefined contents -/
  scGen : Nat := 0
  deriving DecidableEq, Repr

/-! ### Harts (R138 to R145) -/

inductive HartMode where
  | user | machine
  deriving DecidableEq, Repr

/-- Why a hart holds. -/
inductive HartHold where
  | running
  | stopped
  | tally
  | push
  | rearm (unit slot : Nat) (rd : Nat) (base : List Byte) (addr seq : DWord)
  deriving DecidableEq, Repr

structure HartSt where
  x : SMap DWord := []
  f : SMap DWord := []
  fcsr : Byte := 0
  pmp : List PmpEntry := []
  pc : DWord := 0xFF00000000000000#64
  mode : HartMode := .machine
  hold : HartHold := .running
  mcause : DWord := 0
  mepc : DWord := 0
  mtval : DWord := 0
  imem : Memory := []
  dmem : Memory := []
  /-- the reservation of LR: its address in the private data memory and its width -/
  resv : Option (Nat × Nat) := none
  deriving DecidableEq, Repr

/-! ### DRAM (chapter 8) -/

inductive Level where
  | normal | warm | hot | critical
  deriving DecidableEq, Repr

structure Channel where
  mapped : Bool := false
  fenced : Bool := false
  pending : Bool := false
  /-- corrected errors of the running Polestar hour (R216) -/
  hourCe : Nat := 0
  /-- distinct 64 KiB pages with uncorrectable lines since the start (R216) -/
  uePages : List Nat := []
  /-- uncorrectable lines with their times, for the rows within 1 s (R218) -/
  ueRecent : List (Nat × Nat) := []
  /-- the next line of the patrol scrub, the hours of the running pass, and the corrections of each line with their
  times, of the last 24 hours (R208, R210) -/
  scrubPos : Nat := 0
  scrubPeriod : Nat := 0
  corrected : List (Nat × Nat) := []
  /-- bank refreshes performed (R200) -/
  refreshed : Word := 0
  deriving DecidableEq, Repr

structure Stack where
  level : Level := .normal
  offline : Bool := false
  /-- the temperature in 1/16 °C, none while no sensor is valid -/
  temp : Option Int := none
  /-- the sensors have been sampled since the start (R221) -/
  sampled : Bool := false
  sensorOk : BitVec 4 := 0
  degraded : Bool := false
  heldRet : Nat := 0
  /-- the temperature at the last HOT step, and when the last fall was (R223, R225) -/
  lastStepTemp : Int := 0
  lastStepAt : Nat := 0
  lastFallAt : Nat := 0
  falling : Bool := false
  criticalAt : Option Nat := none
  /-- the first sample below 95 °C while offline (R224) -/
  below95 : Option Nat := none
  deriving DecidableEq, Repr

/-- An uncorrectable-line report in resident firmware's queue (R206). -/
structure UeRep where
  channel : Nat
  line : Nat
  /-- 1 an uncorrectable line, 2 a line corrected too often (R210, R212), and the TAI second of the failure -/
  kind : Nat := 1
  second : Nat := 0
  deriving DecidableEq, Repr

structure Dram where
  /-- the live channels of R202, rising -/
  live : List Nat := []
  channels : SMap Channel := []
  perStack : SMap Stack := []
  shareMib : Nat := 0
  /-- lines that read uncorrectable, as channel · 2^25 + line (R206) -/
  bad : List Nat := []
  /-- the erroneous symbols of lines, by the same number (R204, R208) -/
  errs : SMap SymErrs := []
  reports : List UeRep := []
  /-- 64 KiB compacted pages retired, with the times of those retired while running, and pages whose discarded writes
  made them stale (R209, R214, R224) -/
  retired : List (Nat × Option Nat) := []
  stale : List Nat := []
  /-- a slow-member notice has been sent and not cleared (R223, R225) -/
  slowSent : Bool := false
  /-- refill requests for poisoned lines (R209 step 3), by compacted page -/
  refills : List Nat := []
  deriving DecidableEq, Repr

/-- A page that demand paging has filled (R301): its place, the leaf entry that named its tier, and its frame. -/
structure FilledPage where
  cluster : Nat
  ctx : Nat
  page : Nat
  tier : DWord
  frame : Nat
  deriving DecidableEq, Repr

/-- Resident firmware's page keeping for demand paging (R301, R302): the free 64 KiB frames, the filled pages (least
recently filled first), the page-fingerprint table by tier entry, and the 4 KiB pages of translation tables with the
page on another stack that holds each one's second copy (R211). -/
structure Tiering where
  frames : List Nat := []
  filled : List FilledPage := []
  fps : List (DWord × DWord) := []
  copies : List (Nat × Nat) := []
  deriving DecidableEq, Repr

/-! ### Time and the Almanac (chapter 19) -/

inductive PstState where
  | free | locked | stepPending | holdover
  deriving DecidableEq, Repr

structure Pst where
  now : Nat := 0
  /-- PCLK ticks since the start, never set: the time base of every interval (the model's own field) -/
  up : Nat := 0
  snap : Word := 0
  state : PstState := .free
  ppsSeen : Bool := false
  isSet : Bool := false
  armed : Bool := false
  armedAt : Nat := 0
  /-- the last pulse seen, none after a start or HOLDOVER; the last one accepted -/
  lastPulse : Option Nat := none
  lastAccept : Option Nat := none
  offset : Int := 0
  /-- offsets of the consistent run of pulses toward a step (R499) -/
  run : List Int := []
  /-- nanoseconds of slew still to apply, and the ticks since the last applied one -/
  slew : Int := 0
  slewTicks : Nat := 0
  deriving DecidableEq, Repr

/-- The occurrences of one CODE, BLOCK and UNIT in one Polestar second (R509). -/
structure Merge where
  second : Nat
  code : Nat
  block : Nat
  unit : Nat
  count : Nat
  deriving DecidableEq, Repr

/-- A record before it has a SEQ. -/
structure AlmRec where
  code : Nat
  flags : Nat
  block : Nat
  unit : Nat
  data : List Byte
  deriving DecidableEq, Repr

/-- The header that the MRAM holds from manufacture (R504), with the unit's serial as it stands at reset. -/
def almHeader : Memory :=
  [(0, 0x4B#8), (1, 0x59#8), (2, 0x41#8), (3, 0x4C#8), (4, 0x60#8), (5, 0x81#8), (6, 0x59#8), (7, 0x4B#8), (24, 0x01#8)]

structure Alm where
  mram : Memory := almHeader
  ready : Bool := false
  next : Word := 0
  pinNext : Nat := 0
  pinSeq : Word := 0
  merges : List Merge := []
  held : List AlmRec := []
  /-- the die owns the MRAM (R512); nothing more is written after POWER_LOSS (R511) -/
  dieOwns : Bool := true
  stopped : Bool := false
  lossTime : DWord := 0
  deriving DecidableEq, Repr

/-! ### Power (chapter 20) -/

structure Power where
  vin : Int := 0
  iin : Nat := 0
  pin : Nat := 0
  railsGood : Bool := false
  pwrGood : Bool := false
  inputFail : Bool := false
  failAt : Nat := 0
  overVoltage : Bool := false
  vinWarn : Bool := false
  ocWarn : Bool := false
  phaseFault : Bool := false
  moduleEn : Bool := true
  shutdownAt : Option Nat := none
  /-- 1 ms samples since the cap controller last lowered a request, while it may (R522) -/
  capTicks : Nat := 0
  deriving DecidableEq, Repr

structure Aclk where
  /-- the step at which the cluster runs while it moves toward the effective step (R521) -/
  run : Nat := 0
  dram : Nat := 0
  logic : Nat := 0
  cap : Nat := 0
  /-- the die temperature in 1/16 °C, none while the sensor is invalid -/
  temp : Option Int := some 0
  lastGood : Option Int := none
  /-- samples in a row at or above 100 °C, and below 95 °C (R523) -/
  hotFor : Nat := 0
  coolFor : Nat := 0
  deriving DecidableEq, Repr

/-! ### Ports (chapter 17) -/

inductive LinkState where
  | down | training | up | degraded | fenced
  deriving DecidableEq, Repr

structure Link where
  state : LinkState := .down
  lanes : BitVec 8 := 0
  gen : Nat := 0
  peer : Option Nat := none
  /-- flit sequence numbers: expected, next sent, last acknowledged by the far end, and the unacknowledged flits -/
  rxNext : Nat := 0
  txNext : Nat := 0
  replay : List (Nat × List Byte) := []
  /-- flits that wait for room in the replay buffer: KIND, CLASS and payload (R453, R454) -/
  wait : List (Nat × Nat × List Byte) := []
  stuck : Nat := 0
  lastProgress : Nat := 0
  ackDue : Bool := false
  trainings : Nat := 0
  trainedAt : Nat := 0
  lastFail : Option Nat := none
  fails : List Nat := []
  /-- heartbeats: arrival of the last one, misses in a row, the risk and state it carried -/
  hbAt : Option Nat := none
  hbMiss : Nat := 0
  hbRisk : Byte := 0
  hbState : Byte := 0
  hbModule : BitVec 16 := 0xFFFF#16
  hbFirstMiss : Option Nat := none
  deriving DecidableEq, Repr

structure EthPort where
  mode : Nat := 0
  up : Bool := false
  fails : List Nat := []
  deriving DecidableEq, Repr

structure PciPort where
  split : Bool := false
  speed : List Nat := [0, 0]
  width : List Nat := [0, 0]
  lowGen : List Bool := [false, false]
  drive : List Bool := [false, false]
  /-- the times of the NVMe command timeouts of each link within 60 s, and a controller reset that runs (R461) -/
  timeouts : List (List Nat) := [[], []]
  resetting : List Bool := [false, false]
  deriving DecidableEq, Repr

structure Mgt where
  i3cEid : Byte := 0
  i3cDa : BitVec 7 := 0
  smbEid : Byte := 0
  deriving DecidableEq, Repr

structure Beacon where
  mirror : Memory := []
  gen : Byte := 0
  deriving DecidableEq, Repr

/-! ### Start-up, flash and firmware (chapter 18) -/

inductive DevMode where
  | off | boot | safe | service | eclipse | drain | failed
  deriving DecidableEq, Repr

/-- Sets of units (R417, R443 selector 0x07). -/
structure UnitSets where
  cores : BitVec 128 := 0
  channels : BitVec 256 := 0
  clusters : BitVec 16 := 0
  sup : BitVec 4 := 0
  eth : BitVec 8 := 0
  pcie : BitVec 4 := 0
  furrow : BitVec 8 := 0
  flash : BitVec 2 := 0
  deriving DecidableEq, Repr

/-- The image state record (R472, R506). -/
structure ImageState where
  phase : Nat := 0
  pending : Bool := false
  confirmed : Bool := false
  tries : Nat := 0
  stagedKind : Nat := 0
  svnActive : Nat := 0
  svnFallback : Nat := 0
  verActive : Word := 0
  verFallback : Word := 0
  cfgVer : Word := 0
  stagedLen : Nat := 0
  deriving DecidableEq, Repr

inductive StagePath where
  | service | pldm
  deriving DecidableEq, Repr

/-- A staging session (R486): its path, the pages received and the length once FINAL is known. -/
structure Session where
  path : StagePath
  pages : List Nat
  len : Option Nat
  deriving DecidableEq, Repr

structure Dev where
  mode : DevMode := .boot
  safeCode : Nat := 0
  safeItem : Nat := 0
  /-- ports, engines and services have been brought up by this start (R476 step 10) -/
  started : Bool := false
  startMs : Nat := 0
  starts : Word := 0
  /-- the entry into SERVICE or SAFE, and into FAILED -/
  upAt : Nat := 0
  failedAt : Nat := 0
  internal : Bool := false
  /-- the state to which an eclipse returns, and a warm restart ordered -/
  eclipseReturn : DevMode := .service
  restartAt : Option Nat := none
  serial : BitVec 128 := 0
  fuseSvn : Nat := 0
  key0Revoked : Bool := false
  module : Option (BitVec 12) := none
  position : Nat := 0
  sheaf : Nat := 0
  noPosition : Bool := true
  /-- the configuration image in effect, whole; empty before a start has read one -/
  config : List Byte := []
  cal : List Byte := []
  fallow : UnitSets := {}
  pend : UnitSets := {}
  /-- fallow units at the last confirmed start (R490) -/
  confirmedFallow : UnitSets := {}
  image : ImageState := {}
  session : Option Session := none
  flashA : Memory := []
  flashB : Memory := []
  /-- THR_COLL_CTRL.FORCE_ORDERED in effect, and the committed snapshot (R482, R496) -/
  ordEff : Bool := false
  ordSnap : Option Bool := none
  nextConfirm : Option Nat := none
  deriving DecidableEq, Repr

/-! ### Collectives (chapter 13) -/

/-- A member's contribution to an instance (R345, R346): its join descriptor, its data with the poisoned lines of it,
the routing table or origin tags of an expert exchange, and for a member whose agent is a core of this module that core
and the number of its join. -/
structure Contrib where
  member : Nat
  desc : List Byte
  data : List Byte
  poison : List Nat
  table : List Byte
  agent : Option (Nat × Nat)
  deriving DecidableEq, Repr

/-- The pattern of a STEP instance (R354). -/
structure Pattern where
  inst : Word
  gleaned : List Nat
  dropped : List Nat
  deriving DecidableEq, Repr

/-- A collective: the instance that is open or opens next, its contributions in arrival order, those held for the one
after, what was gleaned, and the spans of the last 32 closed instances (R352, R353). -/
structure Coll where
  isOpen : Bool := false
  started : Bool := false
  inst : Word := 0
  openAt : Nat := 0
  /-- the mode forced when the instance opened (R482) -/
  forced : Bool := false
  cur : List Contrib := []
  ahead : List Contrib := []
  gleaned : List Contrib := []
  /-- what has arrived for the open instance, in order: whether it was late data of the one before, and its member (R83) -/
  heard : List (Bool × Nat) := []
  spans : List Nat := []
  closed : Nat := 0
  lastEnd : Status := .ok
  patterns : List Pattern := []
  deriving DecidableEq, Repr

/-- What a paired COMBINE needs of a DISPATCH (R346): the agent core, its EXTENTS, the tokens it sent, its choices for
each, the experts it holds and the rows it received. -/
structure DispatchInfo where
  coll : Nat
  core : Nat
  extents : Nat
  tokens : Nat
  topK : Nat
  experts : Nat
  rows : Nat
  deriving DecidableEq, Repr

structure Router where
  colls : SMap Coll := []
  /-- joins taken from each core's slots since the plan was loaded (R344) -/
  taken : SMap Nat := []
  /-- modules marked slow, and the notices received (R357) -/
  slow : List Nat := []
  dispatches : List DispatchInfo := []
  deriving DecidableEq, Repr

/-! ### The service protocol (chapter 16) -/

structure Service where
  conns : SMap Conn := []
  sessions : List (DWord × SvcSession) := []
  waiting : List Waiting := []
  tenants : SMap Tenant := []
  deriving DecidableEq, Repr

/-! ### Nightwatch and failure (chapter 15) -/

/-- A suspicion held by the arbiter, or shared long enough to be a link fault (R404, R405). -/
structure Suspect where
  sender : Nat
  peer : Nat
  at_ : Nat
  deriving DecidableEq, Repr

inductive EclipsePhase where
  | none | quiesce | copy
  deriving DecidableEq, Repr

/-- A position of the sheaf whose module was fenced and that is to be taken over (R410): when it was fenced, and whether
this module has taken it and its restored state waits for the check (R413). -/
structure Takeover where
  pos : Nat
  module : Nat
  at_ : Nat
  begun : Bool := false
  deriving DecidableEq, Repr

structure Nwt where
  /-- the risk and its five components, the last risk reported and when (R390, R391) -/
  risk : Nat := 0
  comps : List Nat := [0, 0, 0, 0, 0]
  reported : Nat := 0
  reportAt : Option Nat := none
  sheafMax : Nat := 0
  /-- times of lane retrains and of regulator warnings (R390) -/
  linkTimes : List Nat := []
  warnTimes : List Nat := []
  /-- as coordinator: the risk of each module, since when each sheaf has stayed below SECURE_AT − 16, and which sheaves
  may begin an eclipse again (R396) -/
  risks : SMap Nat := []
  below : SMap Nat := []
  spent : List Nat := []
  eclipse : EclipsePhase := .none
  /-- E0 in ticks and as a Polestar value -/
  e0 : Nat := 0
  e0Time : Nat := 0
  lastEclipse : Option Nat := none
  /-- NVMe copies in the background, by tensor (R399) -/
  nvmeCopy : List (Nat × ShardCopy) := []
  handover : Bool := false
  /-- the modules that forwarded a handover command to this one, with their request IDs (R400) -/
  handoverAsks : List (Nat × Nat) := []
  /-- the cutover has paused the sheaf's pools (R401) -/
  cutover : Bool := false
  suspects : List Suspect := []
  relays : List Nat := []
  /-- positions that no module holds: the sheaf is SHORT (R410, R412) -/
  short : List Nat := []
  takeovers : List Takeover := []
  learnStopped : Bool := false
  /-- when the last takeover ended (R445) -/
  takenAt : Nat := 0
  deriving DecidableEq, Repr

/-! ### What the block sends out -/

/-- The answers of the PLDM terminus that a rule states (R463, R493). -/
inductive PldmAnswer where
  | done
  | value (v : Int)
  | unavailable
  | alreadyInUpdateMode
  | notSupported
  deriving DecidableEq, Repr

/-- What leaves the block: replies on its buses and pins, messages, notices and traffic to other modules. -/
inductive Out where
  /-- the value of a register read -/
  | bus (v : Word)
  /-- a write of another module's memory, and the poison of its line (R31) -/
  | peerWrite (addr : Nat) (bytes : List Byte) (poisoned : Bool)
  /-- a tally operation toward another module, and the report of a value to one (R191) -/
  | remoteTally (module : Nat) (op : RemoteOp) (tally : Nat) (val : Word) (tag : Nat)
  | tallyReport (module tag : Nat) (val : Word)
  /-- a remote wait that TLY_CTRL.CLEAR ends unsatisfied (R194) -/
  | watchRefused (module tag : Nat)
  /-- an atomic carried to another module's shared cache (R195): OP, TYPE and the elements' bytes -/
  | peerAtomic (addr op ty : Nat) (bytes : List Byte) (poisoned : Bool)
  /-- the module reports its own failure (R404) -/
  | ownFailure
  /-- a slow-member notice (R357): its STATE and REASON, to every collective the module belongs to -/
  | slowNotice (state reason : Nat) (time : Nat)
  /-- bytes clocked out of the Almanac pins (R512) -/
  | spi (bytes : List Byte)
  /-- the status with which a core's current constellation work ends (R141) -/
  | memberStatus (core : Nat) (st : Status)
  /-- a constellation's own completion record: its 32 bytes (R14, R16) -/
  | consRecord (id : Nat) (bytes : List Byte)
  /-- a furrow flit on a group, and a link-control flit: a NAK that names a SEQ, or an acknowledgement (R452, R454) -/
  | flit (group : Nat) (bytes : List Byte)
  | nak (group seq : Nat)
  | ack (group seq : Nat)
  /-- what the beacon drives in a read cycle (R465) -/
  | beacon (b : Byte)
  /-- the answer to a PLDM request (R463) -/
  | pldm (smbus : Bool) (answer : PldmAnswer)
  /-- the outcome of a PLDM verification (R475, R487) -/
  | pldmVerify (st : Status) (detail : Nat)
  /-- a service message on a connection, and a connection that closes, or is refused at set-up -/
  | message (conn : Nat) (bytes : List Byte)
  | close (conn : Nat)
  | refuseConn (conn : Nat)
  /-- a remote access error NAK (R421) -/
  | accessNak (conn : Nat)
  /-- bytes written to a client's bulk reference (R427) -/
  | bulkWrite (conn : Nat) (ref : List Byte) (bytes : List Byte)
  /-- a cancel or a reward sent on to its home, and the home's answer to the module that forwarded it (R276, R434) -/
  | forward (module : Nat) (ty : Nat) (body : List Byte)
  | forwardAnswer (module : Nat) (ty : Nat) (reqId : Nat) (st : Status) (detail : Nat)
  /-- a slot record sent to the other modules of the sequence (R261), and the end of a sequence that a module has found
  on its page lists (R246) -/
  | slotRecord (slot : Nat) (bytes : List Byte)
  | sequenceFault (slot : Nat) (st : Status)
  /-- an adapter image sent to every module that serves its instance (R282) -/
  | adapterImage (inst : Nat) (image : List Byte)
  /-- a cancel notice to the modules that hold a slot (R277) -/
  | cancelNotice (slot : Nat)
  /-- the step list of a step (R260): each slot and the positions placed for it -/
  | stepList (step : Nat) (rows : List (Nat × Nat))
  /-- the flags that other homes are asked to set on a range of records (R355): home, first and last STORE_SEQ -/
  | sampleFlags (home first last : Nat) (flags : Nat)
  /-- a collective's result leaves for members on other modules -/
  | collClosed (coll : Nat) (inst : Word) (st : Status)
  /-- a journal record and its image, and its acknowledgement (R383, R384) -/
  | journal (buddy : Nat) (header image : List Byte)
  | journalAck (owner tensor step : Nat)
  /-- to the turn coordinator: a rewarded sequence has ended here; from it: LEARNING is decided (R309, R310) -/
  | rewarded (inst : Nat)
  | learning (inst : Nat)
  /-- what a cutover sends to the reserve over the reserve port (R401, R444) -/
  | jobMove (job : JobMove)
  /-- a secured half sent to the buddy with its shard record (R393, R394, R397) -/
  | secure (buddy tensor step bytes : Nat) (record : List Byte)
  /-- a converted shard, or one forwarded (R319): the position and sheaf it goes to -/
  | shard (inst tensor pos sheaf : Nat) (bytes : List Byte)
  /-- READY, the commit of a turn with its version, and the decision of R315 -/
  | ready (inst : Nat)
  | turnCommit (inst : Nat) (ver : Word)
  | turnForced (inst : Nat)
  /-- a risk report, and a sheaf's risk returned (R391) -/
  | riskReport (risk : Nat)
  | sheafRisk (sheaf risk : Nat)
  /-- an eclipse begun by the coordinator, and its resume (R396, R397) -/
  | eclipse | resume
  /-- a suspicion, a fence notice, a sheaf heartbeat, and a takeover's end -/
  | suspicion (peer : Nat)
  | fenceNotice (module : Option Nat)
  | sheafHeartbeat (sheaf : Nat)
  | takenOver (module : Nat)
  /-- a page read from its tier (R300, R301): TIER, UNIT and LOCATOR -/
  | tierRead (tier unit locator : Nat)
  /-- a page copied to or from an NVMe drive, or refilled from another source -/
  | nvmeWrite (tensor step : Nat)
  deriving DecidableEq, Repr


/-- The state of the block. -/
structure State where
  /-- the commands that wait, first in first out -/
  pending : List Instr := []
  /-- registers that differ from their reset value, by offset in the register region (R29) -/
  regs : SMap Word := []
  /-- the snapshots of the 48-bit counters, by the offset of their _LO register (R62) -/
  snaps : SMap Nat := []
  /-- the local physical map (R27): DRAM, scratchpads, shared caches and thresher SRAM -/
  mem : Memory := []
  /-- lines of the map that carry a poison mark, by line number -/
  poison : List Nat := []
  cores : SMap Core := []
  clusters : SMap Cluster := []
  harts : SMap HartSt := []
  tallies : SMap Word := []
  waits : List TallyWait := []
  watches : List RemoteWatch := []
  dram : Dram := {}
  tiering : Tiering := {}
  /-- the plan that is loaded (R441) -/
  plan : Option Plan := none
  /-- the modules that have been fenced (R408) -/
  fenced : List Nat := []
  pst : Pst := {}
  alm : Alm := {}
  power : Power := {}
  aclk : SMap Aclk := []
  links : SMap Link := []
  eth : SMap EthPort := []
  pci : SMap PciPort := []
  mgt : Mgt := {}
  bcn : Beacon := {}
  dev : Dev := {}
  router : Router := {}
  thresher : Thresher := {}
  insts : SMap Inst := []
  serving : Serving := {}
  service : Service := {}
  nwt : Nwt := {}
  /-- what the block has sent, newest first (the model's own field) -/
  out : List Out := []
  /-- the pushes and starts of stream descriptors so far, which order them (the model's own field; R155, R169, R296) -/
  issue : Nat := 0
  /-- the counter of free values (the model's own field) -/
  freeCtr : Nat := 0
  deriving DecidableEq, Repr

/-- Why the block stops. Raised by INPUT_FAILURE and REGULATOR_WARNING beyond the absolute maximum ratings of R528,
where the spec gives no behaviour (safe). -/
inductive Fault where
  /-- the input voltage lies beyond R528's absolute maximum ratings: raised by execInputFailure and
  execRegulatorWarning; safe -/
  | beyondRatings
  deriving DecidableEq, Repr

/-- Why a command has no meaning. -/
inductive Refusal where
  /-- a command that the model gives no meaning yet: raised by an arm of `exec`; safe -/
  | notModelled (mnemonic : String)
  deriving DecidableEq, Repr

/-- The block right after reset: BOOT, before the start-up's steps have run. DESIGN CHOICE: log entries 4, 7, 8. -/
def State.reset : State := {}

end Sys2Proof.Machine
end

