-- ==== Sys2Proof/Machine/Ops.lean ====
section
/-! DEFINITION. The named operations over the state: its parts, registers and counters, the Almanac, the local physical
map, tallies and free values. -/

namespace Sys2Proof.Machine

/-- A sorted list of numbers as a set. -/
def nsInsert (a : Nat) : List Nat → List Nat
  | [] => [a]
  | b :: t => if a < b then a :: b :: t else if a = b then b :: t else b :: nsInsert a t

def nsErase (a : Nat) (l : List Nat) : List Nat := l.filter (· ≠ a)

/-- A list with the element at an index replaced by a function of it. -/
def modAt {α : Type} (f : α → α) : Nat → List α → List α
  | _, [] => []
  | 0, a :: t => f a :: t
  | n + 1, a :: t => a :: modAt f n t

/-- The codes of R447. -/
def statusCode : Status → Nat
  | .ok => 0x00 | .zero => 0x01 | .cancelled => 0x02 | .alreadyDone => 0x03
  | .poison => 0x10 | .faultHalt => 0x11 | .timeout => 0x12 | .gleaned => 0x13 | .dropped => 0x14
  | .fenced => 0x15 | .lagging => 0x16
  | .weightLost => 0x20 | .versionRetired => 0x21 | .adapterMissing => 0x22 | .unavailable => 0x23
  | .badDescriptor => 0x30 | .outOfRange => 0x31 | .noResource => 0x32 | .shapeUnsupported => 0x33
  | .sigFail => 0x40 | .bindingFail => 0x41 | .rollback => 0x42 | .internal => 0x7F

/-- The status of a code of R447. -/
def statusOfCode (n : Nat) : Status :=
  ([.zero, .cancelled, .alreadyDone, .poison, .faultHalt, .timeout, .gleaned, .dropped, .fenced, .lagging, .weightLost,
    .versionRetired, .adapterMissing, .unavailable, .badDescriptor, .outOfRange, .noResource, .shapeUnsupported, .sigFail,
    .bindingFail, .rollback, .internal].find? fun s => statusCode s = n).getD .ok

/-- The writes and tally operations toward other modules. -/
def Out.toPeer : Out → Bool
  | .peerWrite _ _ _ => true
  | .peerAtomic _ _ _ _ _ => true
  | .remoteTally _ _ _ _ _ => true
  | _ => false

namespace State

/-! ### Parts of the state -/

def core (s : State) (k : Nat) : Core := SMap.get {} s.cores k
def modCore (s : State) (k : Nat) (f : Core → Core) : State := { s with cores := SMap.set s.cores k (f (s.core k)) }
def mxe (s : State) (k : Nat) : Mxe := (s.core k).mxe
def modMxe (s : State) (k : Nat) (f : Mxe → Mxe) : State := s.modCore k fun c => { c with mxe := f c.mxe }
def vxe (s : State) (k : Nat) : Vxe := (s.core k).vxe
def modVxe (s : State) (k : Nat) (f : Vxe → Vxe) : State := s.modCore k fun c => { c with vxe := f c.vxe }
def str (s : State) (k u : Nat) : StrUnit := (s.core k).str.getD u {}
def modStr (s : State) (k u : Nat) (f : StrUnit → StrUnit) : State :=
  s.modCore k fun c => { c with str := modAt f u c.str }
def cluster (s : State) (c : Nat) : Cluster := SMap.get {} s.clusters c
def modCluster (s : State) (c : Nat) (f : Cluster → Cluster) : State :=
  { s with clusters := SMap.set s.clusters c (f (s.cluster c)) }
/-- DESIGN CHOICE: log entry 7. -/
def hart (s : State) (h : Nat) : HartSt := SMap.get {} s.harts h
def modHart (s : State) (h : Nat) (f : HartSt → HartSt) : State := { s with harts := SMap.set s.harts h (f (s.hart h)) }
def chan (s : State) (n : Nat) : Channel := SMap.get {} s.dram.channels n
def modChan (s : State) (n : Nat) (f : Channel → Channel) : State :=
  { s with dram := { s.dram with channels := SMap.set s.dram.channels n (f (s.chan n)) } }
def stack (s : State) (n : Nat) : Stack := SMap.get {} s.dram.perStack n
def modStack (s : State) (n : Nat) (f : Stack → Stack) : State :=
  { s with dram := { s.dram with perStack := SMap.set s.dram.perStack n (f (s.stack n)) } }
def aclkOf (s : State) (c : Nat) : Aclk := SMap.get {} s.aclk c
def modAclk (s : State) (c : Nat) (f : Aclk → Aclk) : State := { s with aclk := SMap.set s.aclk c (f (s.aclkOf c)) }
def link (s : State) (g : Nat) : Link := SMap.get {} s.links g
def modLink (s : State) (g : Nat) (f : Link → Link) : State := { s with links := SMap.set s.links g (f (s.link g)) }
def ethPort (s : State) (p : Nat) : EthPort := SMap.get {} s.eth p
def modEth (s : State) (p : Nat) (f : EthPort → EthPort) : State := { s with eth := SMap.set s.eth p (f (s.ethPort p)) }
def pciPort (s : State) (p : Nat) : PciPort := SMap.get {} s.pci p
def modPci (s : State) (p : Nat) (f : PciPort → PciPort) : State := { s with pci := SMap.set s.pci p (f (s.pciPort p)) }

/-- Something sent out of the block. A module that has failed sends no write and no tally operation to another (R406).
DESIGN CHOICE: log entry 13. -/
def send (s : State) (o : Out) : State :=
  if s.dev.mode = .failed ∧ o.toPeer = true then s else { s with out := o :: s.out }

/-- A free 32-bit value and the state after it is drawn. DESIGN CHOICE: log entry 14. -/
def draw (s : State) : Word × State := (Config.freeWord s.freeCtr, { s with freeCtr := s.freeCtr + 1 })

/-- The device has power and is not OFF. -/
def on (s : State) : Bool := s.dev.mode != .off

/-! ### Registers (R3 to R8) -/

end State

/-- The offset of a register's instance in the register region. -/
def regOff (id : RegId) (inst : Nat := 0) (ix : List Nat := []) : Nat := RegRef.off ⟨id, inst, ix⟩

namespace State

/-- The value a register holds. DEDUCED: log entry 17. -/
def reg (s : State) (id : RegId) (inst : Nat := 0) (ix : List Nat := []) : Word :=
  (SMap.find s.regs (regOff id inst ix)).getD (RegRef.reset ⟨id, inst, ix⟩)

/-- A register's value replaced whole. -/
def setReg (s : State) (id : RegId) (inst : Nat) (ix : List Nat) (v : Word) : State :=
  { s with regs := SMap.set s.regs (regOff id inst ix) v }

/-- A field of a register, bits hi down to lo. -/
def fld (s : State) (id : RegId) (inst : Nat) (ix : List Nat) (hi lo : Nat) : Nat := bits (s.reg id inst ix).toNat hi lo

def setFld (s : State) (id : RegId) (inst : Nat) (ix : List Nat) (hi lo v : Nat) : State :=
  s.setReg id inst ix (BitVec.ofNat 32 (setBits (s.reg id inst ix).toNat hi lo v))

/-- Bits set in a status register. -/
def orReg (s : State) (id : RegId) (inst : Nat) (ix : List Nat) (v : Word) : State :=
  s.setReg id inst ix (s.reg id inst ix ||| v)

/-- A 32-bit counter raised, saturating at 0xFFFF_FFFF. -/
def incReg (s : State) (id : RegId) (inst : Nat := 0) (ix : List Nat := []) (n : Nat := 1) : State :=
  s.setReg id inst ix ((s.reg id inst ix).incSat n)

/-- A 48-bit counter raised (R62): OVF is set when it wraps. -/
def inc48 (s : State) (lo hi : RegId) (inst : Nat) (ix : List Nat) (n : Nat) : State :=
  let h := (s.reg hi inst ix).toNat
  let t := (s.reg lo inst ix).toNat + 2^32 * (h % 2^16) + n
  let ovf := if t ≥ 2^48 then 1 else h / 2^31
  (s.setReg lo inst ix (BitVec.ofNat 32 t)).setReg hi inst ix (BitVec.ofNat 32 (ovf * 2^31 + t / 2^32 % 2^16))

/-! ### The Almanac (R504 to R511) -/

/-- The Polestar second. -/
def second (s : State) : Nat := s.pst.now / 10^9

/-- The codes that are copied to the pinned event ring (R508). -/
def almPinned (code : Nat) : Bool :=
  [0x0011, 0x0012, 0x0020, 0x0023, 0x0040, 0x0041, 0x0050, 0x007F].contains code

/-- A record's 60 checked bytes and its CHECK (R507). -/
def almBytes (s : State) (seq : Word) (r : AlmRec) : List Byte :=
  let flags := (if s.pst.isSet then 0 else 1) + (if almPinned r.code then 2 else 0) + r.flags
  let m := match s.dev.module with
    | some id => id.toNat
    | none => 0xFFFF
  let l := leBytes 4 seq.toNat ++ leBytes 2 r.code ++ leBytes 1 flags ++ leBytes 1 r.block ++ leBytes 8 s.pst.now
    ++ leBytes 4 s.dev.starts.toNat ++ leBytes 2 m ++ leBytes 2 r.unit
    ++ (r.data ++ List.replicate 36 0).take 36
  l ++ leBytes 4 (crc32c l)

/-- A record written to the MRAM at once (R504, R507). DEDUCED: log entry 103. -/
def almWrite (s : State) (r : AlmRec) : State :=
  if s.alm.stopped then s
  else if !s.alm.ready then { s with alm := { s.alm with held := s.alm.held ++ [r] } }
  else
    let a := s.alm
    let b := s.almBytes a.next r
    let mram := Memory.write 0 a.mram (0x080000 + 64 * (a.next.toNat % 131072)) b
    if almPinned r.code then
      { s with alm := { a with
          mram := Memory.write 0 mram (0x001000 + 64 * (1024 + a.pinNext)) b
          next := a.next + 1, pinNext := (a.pinNext + 1) % 3072, pinSeq := a.next } }
    else { s with alm := { a with mram := mram, next := a.next + 1 } }

/-- R509: the entry of a combination in the running second, counted up. DEDUCED: log entry 103. -/
def mergeHit (sec code block unit : Nat) : List Merge → Option (List Merge)
  | [] => none
  | e :: t =>
    if e.second = sec ∧ e.code = code ∧ e.block = block ∧ e.unit = unit then
      some ({ e with count := e.count + 1 } :: t)
    else (mergeHit sec code block unit t).map (e :: ·)

/-- An event recorded in the Almanac: at most one record in each second for one CODE, BLOCK and UNIT, further ones
merged (R509); TURN records always. -/
def record (s : State) (code block unit : Nat) (data : List Byte) (flags : Nat := 0) : State :=
  if code = 0x0030 then s.almWrite ⟨code, flags, block, unit, data⟩
  else
    match mergeHit s.second code block unit s.alm.merges with
    | some l => { s with alm := { s.alm with merges := l } }.incReg .almMerged
    | none =>
      let s := { s with alm := { s.alm with merges := s.alm.merges ++ [Merge.mk s.second code block unit 0] } }
      s.almWrite ⟨code, flags, block, unit, data⟩

/-- The UNIT of a record about an offset of the register region (R532): the core, the cluster or, at a die block's
register that the lane groups, ports, positions or clusters have one of each, that instance's number.
DEDUCED: log entry 107. -/
def accessUnit (off : Nat) : Nat :=
  match blockKind (off / 2^24) with
  | some .core => off / 2^17 % 128
  | some .cluster => off / 2^20 % 16
  | some .die =>
    match findReg (off / 4 * 4) with
    | some ⟨.nwtFallowCore, _, _⟩ => 0
    | some r => r.ix.headD 0
    | none => 0
  | none => 0

/-- A REG_ACCESS record about an address of the register region (R508, R532). -/
def recordAccess (s : State) (addr width : Nat) (val : Nat) : State :=
  let off := addr % 2^32
  s.record 0x0001 (off / 2^24) (accessUnit off) (leBytes 8 addr ++ leBytes 1 width ++ leBytes 4 val)

/-- The DATA of a record whose contents no rule states: free bytes. -/
def freeData (s : State) : List Byte := (List.range 36).map (Config.freeByte s.freeCtr)

/-- An EVENT record (R508): the event's status code, detail and data are not stated, so they are free. -/
def recordEvent (s : State) (block unit : Nat) : State :=
  { s with freeCtr := s.freeCtr + 1 }.record 0x0070 block unit s.freeData

/-- An INTERNAL record (R508, R490), with free diagnostic data. -/
def recordInternal (s : State) (block unit : Nat) : State :=
  { s with freeCtr := s.freeCtr + 1, dev := { s.dev with internal := true } }.record 0x007F block unit s.freeData

/-- A register access to an offset of the region, recorded. -/
def recordReg (s : State) (id : RegId) (inst : Nat) (ix : List Nat) (val : Nat) : State :=
  s.recordAccess (0xF0000000000 + regOff id inst ix) 4 val

end State

/-! ### The local physical map (R27, R28) -/

/-- Where an address of the map lies (R27). -/
inductive Region where
  | dram
  | scratch (core off : Nat)
  | cache (cluster off : Nat)
  | thresher (off : Nat)
  | regs (off : Nat)
  | hole
  deriving DecidableEq, Repr

def regionOf (a : Nat) : Region :=
  if a < 0x80000000000 then .dram
  else if a < 0x80040000000 then .scratch ((a - 0x80000000000) / 2^23) (a % 2^23)
  else if 0x81000000000 ≤ a ∧ a < 0x81040000000 then .cache ((a - 0x81000000000) / 2^26) (a % 2^26)
  else if 0x82000000000 ≤ a ∧ a < 0x82010000000 then .thresher (a % 2^28)
  else if 0xF0000000000 ≤ a ∧ a < 0xF0100000000 then .regs (a % 2^32)
  else .hole

/-- The address of a byte of a core's scratchpad (R27). -/
def scratchAddr (k off : Nat) : Nat := 0x80000000000 + k * 2^23 + off

namespace State

/-- A core that is fallow itself or lies in a fallow cluster (R417). -/
def coreFallow (s : State) (k : Nat) : Bool :=
  s.dev.fallow.cores.getLsbD k || s.dev.fallow.clusters.getLsbD (k / 8)

def clusterFallow (s : State) (c : Nat) : Bool := s.dev.fallow.clusters.getLsbD c

/-- The installed, compacted DRAM capacity in bytes (R28, R202). -/
def dramCap (s : State) : Nat := s.dram.live.length * 1342177280

/-- The addressable part of a cluster's shared cache in bytes (R149, R174). -/
def cacheSize (s : State) (c : Nat) : Nat := min (s.fld .cluScCfg c [] 4 0) 16 * 2^22

/-- R28, R149: may the line at an address be accessed. -/
def lineOk (s : State) (a : Nat) : Bool :=
  match regionOf a with
  | .dram => decide (a < s.dramCap)
  | .scratch k _ => !s.coreFallow k
  | .cache c off => !s.clusterFallow c && decide (off < s.cacheSize c)
  | .thresher _ => true
  | .regs _ => true
  | .hole => false

/-- The start of the LOCAL windows, each with its stack's live channels (R202). -/
def localWindows (live : List Nat) (share : Nat) : Nat → Nat → List (Nat × Nat × List Nat)
  | 0, _ => []
  | n + 1, base =>
    let l := live.filter fun c => c / 16 = 15 - n
    (15 - n, base, l) :: localWindows live share n (base + l.length * (1280 - share) * 2^20)

/-- R203: the channel of a compacted address and the byte within the channel. -/
def dramDecode (s : State) (a : Nat) : Option (Nat × Nat) :=
  let n := s.dram.live.length
  let sp := n * s.dram.shareMib * 2^20
  if a < sp then
    let g := a / 2048
    some (s.dram.live.getD (g % n) 0, g / n * 2048 + a % 2048)
  else
    match (localWindows s.dram.live s.dram.shareMib 16 sp).find? fun w =>
      decide (w.2.1 ≤ a) && decide (a < w.2.1 + w.2.2.length * (1280 - s.dram.shareMib) * 2^20) with
    | some w =>
      let g := (a - w.2.1) / 2048
      let k := w.2.2.length
      some (w.2.2.getD (g % k) 0, (s.dram.shareMib * 512 + g / k) * 2048 + a % 2048)
    | none => none

/-- R203 inverted: the compacted address of a byte within a live channel. -/
def dramEncode (s : State) (ch byte : Nat) : Option Nat :=
  let live := s.dram.live
  if !live.contains ch then none
  else
    let row := byte / 2048
    if row < s.dram.shareMib * 512 then
      some ((row * live.length + live.findIdx (· = ch)) * 2048 + byte % 2048)
    else
      match (localWindows live s.dram.shareMib 16 (live.length * s.dram.shareMib * 2^20)).find? fun w => w.1 = ch / 16 with
      | some w =>
        some (w.2.1 + ((row - s.dram.shareMib * 512) * w.2.2.length + w.2.2.findIdx (· = ch)) * 2048 + byte % 2048)
      | none => none

/-- The channel and line of a DRAM address, as channel · 2^25 + line. -/
def lineKey (s : State) (a : Nat) : Nat :=
  match s.dramDecode a with
  | some (ch, b) => ch * 2^25 + b / 64
  | none => 0

/-- Every access to a DRAM address is turned away: its channel is fenced or its stack offline (R218, R224). -/
def dramShut (s : State) (a : Nat) : Bool :=
  match s.dramDecode a with
  | some (ch, _) => (s.chan ch).fenced || (s.stack (ch / 16)).offline
  | none => false

def isDram (a : Nat) : Bool := decide (a < 0x80000000000)

/-- What hides the contents of an addressable shared-cache part that CLU_SC_CFG has left undefined (R151). -/
def cacheVeil (s : State) (a : Nat) : Byte :=
  match regionOf a with
  | .cache c _ => let g := (s.cluster c).scGen; if g = 0 then 0 else Config.scByte g a
  | _ => 0

/-- One byte of the local physical map. DESIGN CHOICE: log entry 6. -/
def byte (s : State) (a : Nat) : Byte := Memory.get 0 s.mem a ^^^ s.cacheVeil a

/-- `n` bytes of the map. -/
def bytes (s : State) (a n : Nat) : List Byte := (List.range n).map fun i => s.byte (a + i)

/-- Does a read of the line at an address return it poisoned (R146, R205, R206, R218, R224). -/
def linePoison (s : State) (a : Nat) : Bool :=
  s.poison.contains (a / 64) || (isDram a && (s.dramShut a || s.dram.bad.contains (s.lineKey a)))

/-- Is any line of a range poisoned. -/
def rangePoison (s : State) (a n : Nat) : Bool :=
  n != 0 && (List.range ((a + n - 1) / 64 - a / 64 + 1)).any fun i => s.linePoison (a / 64 * 64 + 64 * i)

/-- The poisoned lines of a range, counted from its start's line. -/
def poisonLines (s : State) (a n : Nat) : List Nat :=
  if n = 0 then [] else
  (List.range ((a + n - 1) / 64 - a / 64 + 1)).filter fun i => s.linePoison (a / 64 * 64 + 64 * i)

/-- Bits [31:0] of the TAI seconds of the Polestar counter (R212). -/
def taiSecond (s : State) : Nat := s.pst.now / 10^9

/-- R210: 16 corrected reads of one line within 24 hours. -/
def correctedOften (s : State) (ch line : Nat) : Bool :=
  decide (((s.chan ch).corrected.filter fun e => decide (e.1 = line)).length ≥ 16)

/-- R208: a corrected error is written back corrected and counted; R210: a line corrected too often is put before
resident firmware. -/
def noteCorrected (s : State) (ch line : Nat) : State :=
  let s := { s with dram := { s.dram with errs := SMap.del s.dram.errs (ch * 2^25 + line) } }
  let s := (s.modChan ch fun c => { c with
    hourCe := c.hourCe + 1
    corrected := (c.corrected.filter fun e => decide (s.pst.now < e.2 + 86400 * 10^9)) ++ [(line, s.pst.now)] }).incReg
    .drmCe (ch / 16) [ch % 16]
  if s.correctedOften ch line then
    { s with dram := { s.dram with reports := s.dram.reports ++ [⟨ch, line, 2, s.taiSecond⟩] } }
  else s

/-- R206, R208: what a read does beside returning the line: an uncorrectable one is counted, latched and reported, and
one erroneous symbol is corrected and counted. -/
def noteRead (s : State) (a : Nat) : State :=
  let ch := s.lineKey a / 2^25
  let line := s.lineKey a % 2^25
  if !isDram a || s.dramShut a then s
  else if s.dram.bad.contains (s.lineKey a) then
    let s := s.incReg .drmUe (ch / 16) [ch % 16]
    let s := s.setReg .drmUeLastLine (ch / 16) [] (BitVec.ofNat 32 line)
    let s := s.setReg .drmUeLastCh (ch / 16) [] (BitVec.ofNat 32 ch)
    let s := s.modChan ch fun c => { c with
      ueRecent := (c.ueRecent.filter fun e => decide (s.pst.up < e.2 + 10^9)) ++ [(line, s.pst.up)] }
    { s with dram := { s.dram with reports := s.dram.reports ++ [⟨ch, line, 1, s.taiSecond⟩] } }
  else if (SMap.find s.dram.errs (s.lineKey a)).isSome then s.noteCorrected ch line
  else s

/-- R206 over the lines of a range. -/
def noteRange (s : State) (a n : Nat) : State :=
  if n = 0 then s else
  (List.range ((a + n - 1) / 64 - a / 64 + 1)).foldl (fun s i => s.noteRead (a / 64 * 64 + 64 * i)) s

/-- The 64 KiB compacted page of a DRAM address marked stale (R224). -/
def markStale (s : State) (a : Nat) : State :=
  { s with dram := { s.dram with stale := nsInsert (a / 65536) s.dram.stale } }

/-- Bytes stored, no poison considered. -/
def store (s : State) (a : Nat) (b : List Byte) : State :=
  { s with mem := Memory.write 0 s.mem a (b.mapIdx fun i v => v ^^^ s.cacheVeil (a + i)) }

/-- The poison mark of a line set or cleared. -/
def setPoison (s : State) (line : Nat) (p : Bool) : State :=
  { s with poison := if p then nsInsert line s.poison else nsErase line s.poison }

/-- R207, R218, R224: a write of bytes within one line. A whole line replaces the line and its mark; a narrower write is
merged, and the merge of a poisoned or uncorrectable line leaves it poisoned. -/
def writeLine (s : State) (a : Nat) (b : List Byte) (p : Bool) : State :=
  match regionOf a with
  | .regs _ => s
  | _ =>
    if isDram a && s.dramShut a then
      (match s.dramDecode a with
        | some (ch, _) => if (s.stack (ch / 16)).offline then s.markStale a else s
        | none => s)
    else if b.length = 64 then
      let s := (s.store a b).setPoison (a / 64) p
      if isDram a then { s with dram := { s.dram with
        bad := nsErase (s.lineKey a) s.dram.bad, errs := SMap.del s.dram.errs (s.lineKey a) } } else s
    else
      let was := s.linePoison a
      let s := (s.noteRead (a / 64 * 64)).store a b
      let s := s.setPoison (a / 64) (was || p)
      if isDram a then { s with dram := { s.dram with
        bad := nsErase (s.lineKey a) s.dram.bad, errs := SMap.del s.dram.errs (s.lineKey a) } } else s

/-- Bytes written line by line; `p` marks every line poisoned. -/
def writeLines : Nat → State → Nat → List Byte → Bool → State
  | 0, s, _, _, _ => s
  | _, s, _, [], _ => s
  | n + 1, s, a, b, p =>
    let k := 64 - a % 64
    writeLines n (s.writeLine a (b.take k) p) (a + k) (b.drop k) p

def write (s : State) (a : Nat) (b : List Byte) (p : Bool := false) : State := writeLines (b.length / 64 + 2) s a b p

/-! ### Tallies (R187 to R194) -/

def tally (s : State) (t : Nat) : Word := SMap.get 0 s.tallies t

/-- R189: is a value at least a threshold. -/
def atLeast (v h : Word) : Bool := decide (0 ≤ (v - h).toInt)

/-- A local wait that watches a tally keeps the first value that satisfies it (R189). DEDUCED: log entry 31. -/
def latchWait (t : Nat) (v : Word) (w : TallyWait) : TallyWait :=
  if w.tally = t ∧ w.watch = true ∧ w.remote = none ∧ w.got = none ∧ atLeast v w.threshold = true then
    { w with got := some v }
  else w

/-- A remote watch that a tally's new value satisfies (R191); a wait without an entry sees it only as it polls (R193). -/
def watchHit (t : Nat) (v : Word) (w : RemoteWatch) : Bool :=
  decide (w.tally = t) && !w.polled && atLeast v w.threshold

/-- A tally's value replaced; every wait that watches it is evaluated at the update (R189), and the remote watches it
satisfies are reported (R191). -/
def setTally (s : State) (t : Nat) (v : Word) : State :=
  let hits := s.watches.filter (watchHit t v)
  { s with
    tallies := SMap.set s.tallies t v,
    waits := s.waits.map (latchWait t v),
    watches := s.watches.filter fun w => !watchHit t v w,
    out := (hits.map fun w => Out.tallyReport w.src w.tag v).reverse ++ s.out }

def addTally (s : State) (t inc : Nat) : State := s.setTally t (s.tally t + BitVec.ofNat 32 inc)

/-- Watch entries in use in a cluster's tally unit (R193). -/
def watchUsed (s : State) (c : Nat) : Nat :=
  (s.waits.filter fun w => decide (w.tally / 1024 = c) && w.watch && w.remote.isNone).length
  + (s.watches.filter fun w => decide (w.tally / 1024 = c) && !w.polled).length

end State

/-- R168: a core is removed from every running multicast set. -/
def dropMember (s : State) (m : Nat) : State :=
  { s with cores := SMap.mapVals (fun _ c => { c with str := c.str.map fun x =>
      { x with active := x.active.map (Option.map fun r =>
          if r.set.contains m then { r with set := nsErase m r.set, dropped := min (r.dropped + 1) 255 } else r) } }) s.cores }

/-- The join tallies 1,016 to 1,023 of a cluster (R145, R344). -/
def isJoinTally (t : Nat) : Bool := decide (t % 1024 ≥ 1016)

/-- The time one PCLK tick later: a slew moves the counter at most 100 ppm faster or slower (R499).
DEDUCED: log entry 101. DESIGN CHOICE: log entry 102. -/
def Pst.tick (p : Pst) : Pst :=
  let p := { p with up := p.up + 1 }
  if p.slew = 0 then { p with now := p.now + 1 }
  else if p.slewTicks + 1 < 10000 then { p with now := p.now + 1, slewTicks := p.slewTicks + 1 }
  else if p.slew > 0 then { p with now := p.now + 2, slew := p.slew - 1, slewTicks := 0 }
  else { p with now := p.now, slew := p.slew + 1, slewTicks := 0 }

/-- One PCLK tick. In OFF the counter stands. DESIGN CHOICE: log entries 3, 15. -/
def State.tick (s : State) : State := if s.on then { s with pst := s.pst.tick } else s

/-- The outcome of a command that the device takes while it is not OFF; in OFF nothing happens.
DESIGN CHOICE: log entry 10. -/
def powered (s : State) (t : State) : Host.Outcome State Fault Refusal := .next (if s.on then t else s)

end Sys2Proof.Machine
end

