-- ==== Sys2Proof/Machine/Almanac.lean ====
section
/-! DEFINITION. The Almanac's pinned items, its window and its pins (R504 to R514). -/

namespace Sys2Proof.Machine

/-! ### Pinned items (R505) -/

/-- How a pinned item is laid out: its size, where its GEN lies, and where its CRC lies. -/
structure PinItem where
  addr0 : Nat
  addr1 : Nat
  size : Nat
  gen : Nat
  crc : Nat
  deriving DecidableEq, Repr

def pinSlot (n : Nat) : Nat := 0x001000 + 64 * n
def itemImage : PinItem := ⟨pinSlot 0, pinSlot 1, 64, 0, 60⟩
def itemPending : PinItem := ⟨pinSlot 2, pinSlot 4, 128, 116, 124⟩
def itemStarts : PinItem := ⟨pinSlot 6, pinSlot 7, 64, 52, 60⟩
/-- Slot j of the SET_VERSION table. -/
def itemSet (j : Nat) : PinItem := ⟨pinSlot (8 + j), pinSlot (350 + j), 64, 52, 60⟩

/-- A copy whose CRC is correct. -/
def pinCopy (m : Memory) (i : PinItem) (a : Nat) : Option (List Byte) :=
  let b := Memory.read 0 m a i.size
  if crc32c (b.take i.crc) = fieldAt b i.crc 4 then some b else none

/-- The copy that a reader takes: the one with a correct CRC; of two, the one whose GEN is the greater. -/
def pinRead (m : Memory) (i : PinItem) : Option (List Byte) :=
  match pinCopy m i i.addr0, pinCopy m i i.addr1 with
  | some a, some b =>
    let ga := BitVec.ofNat 32 (fieldAt a i.gen 4)
    let gb := BitVec.ofNat 32 (fieldAt b i.gen 4)
    some (if State.atLeast ga gb then a else b)
  | some a, none => some a
  | none, some b => some b
  | none, none => none

def patchBytes (l : List Byte) (off : Nat) (b : List Byte) : List Byte := l.take off ++ b ++ l.drop (off + b.length)

/-- An item written: copy 0 with GEN + 1, then copy 1. Nothing is written after POWER_LOSS (R511). -/
def pinWrite (s : State) (i : PinItem) (body : List Byte) : State :=
  if s.alm.stopped then s
  else
    let g := match pinRead s.alm.mram i with
      | some b => fieldAt b i.gen 4
      | none => 0
    let b := patchBytes ((body ++ List.replicate i.size 0).take i.size) i.gen (leBytes 4 (g + 1))
    let b := patchBytes b i.crc (leBytes 4 (crc32c (b.take i.crc)))
    let m := Memory.write 0 (Memory.write 0 s.alm.mram i.addr0 b) i.addr1 b
    { s with alm := { s.alm with mram := m } }

/-- A unit set in the layout of R443 selector 0x07. -/
def unitBytes (u : UnitSets) : List Byte :=
  leBytes 16 u.cores.toNat ++ leBytes 32 u.channels.toNat ++ leBytes 2 u.clusters.toNat ++ leBytes 1 u.sup.toNat
  ++ leBytes 1 u.eth.toNat ++ leBytes 1 u.pcie.toNat ++ leBytes 1 u.furrow.toNat ++ leBytes 1 u.flash.toNat
  ++ List.replicate 9 0

def unitsOf (b : List Byte) : UnitSets :=
  { cores := BitVec.ofNat _ (fieldAt b 0 16), channels := BitVec.ofNat _ (fieldAt b 16 32),
    clusters := BitVec.ofNat _ (fieldAt b 48 2), sup := BitVec.ofNat _ (fieldAt b 50 1),
    eth := BitVec.ofNat _ (fieldAt b 51 1), pcie := BitVec.ofNat _ (fieldAt b 52 1),
    furrow := BitVec.ofNat _ (fieldAt b 53 1), flash := BitVec.ofNat _ (fieldAt b 54 1) }

/-- The pending marks changed, in memory and in the Almanac (R417, R505). -/
def setPend (s : State) (u : UnitSets) : State :=
  pinWrite { s with dev := { s.dev with pend := u } } itemPending (unitBytes u)

/-- Slots 6 and 7: STARTS and LOSS_TIME. -/
def writeStarts (s : State) : State :=
  pinWrite s itemStarts (leBytes 4 s.dev.starts.toNat ++ leBytes 4 0 ++ leBytes 8 s.alm.lossTime.toNat)

/-- The image state record (R506). -/
def imageBytes (i : ImageState) : List Byte :=
  leBytes 4 0 ++ leBytes 1 i.phase ++ leBytes 1 (i.pending.toNat + 2 * i.confirmed.toNat) ++ leBytes 1 i.tries
  ++ leBytes 1 i.stagedKind ++ leBytes 1 i.svnActive ++ leBytes 1 i.svnFallback ++ leBytes 2 0
  ++ leBytes 4 i.verActive.toNat ++ leBytes 4 i.verFallback.toNat ++ leBytes 4 i.cfgVer.toNat ++ leBytes 8 i.stagedLen

def imageOf (b : List Byte) : ImageState :=
  { phase := fieldAt b 4 1 % 8, pending := fieldAt b 5 1 % 2 = 1, confirmed := fieldAt b 5 1 / 2 % 2 = 1,
    tries := fieldAt b 6 1, stagedKind := fieldAt b 7 1, svnActive := fieldAt b 8 1, svnFallback := fieldAt b 9 1,
    verActive := BitVec.ofNat 32 (fieldAt b 12 4), verFallback := BitVec.ofNat 32 (fieldAt b 16 4),
    cfgVer := BitVec.ofNat 32 (fieldAt b 20 4), stagedLen := fieldAt b 24 8 }

def setImage (s : State) (i : ImageState) : State :=
  pinWrite { s with dev := { s.dev with image := i } } itemImage (imageBytes i)

/-! ### The scan at a start (R510) -/

/-- Is a 64-byte ring slot empty, torn, or a record. -/
def ringRecord (m : Memory) (i : Nat) : Option (List Byte × Bool) :=
  let b := Memory.read 0 m (0x080000 + 64 * i) 64
  if b.all (· = 0) then none else some (b, decide (crc32c (b.take 60) = fieldAt b 60 4))

/-- The ring slots that hold anything, found through the memory's cells. -/
def usedSlots (lo n : Nat) (m : Memory) : List Nat :=
  (m.filterMap fun c => if lo ≤ c.1 ∧ c.1 < lo + 64 * n then some ((c.1 - lo) / 64) else none).eraseDups

/-- The scan: the record with the greatest SEQ and a correct CHECK gives the next SEQ; torn ones are counted. The newest
record of the pinned event ring gives the place of the next one there. -/
def almScan (s : State) : State :=
  let used := (usedSlots 0x080000 131072 s.alm.mram).filterMap (ringRecord s.alm.mram)
  let good := (used.filter (·.2)).map fun r => BitVec.ofNat 32 (fieldAt r.1 0 4)
  let torn := (used.filter fun r => !r.2).length
  let best := fun (l : List Word) => l.foldl (fun (b : Option Word) q => match b with
    | none => some q
    | some b => some (if State.atLeast q b then q else b)) none
  let pins := (usedSlots 0x011000 3072 s.alm.mram).filterMap fun i =>
    let b := Memory.read 0 s.alm.mram (0x011000 + 64 * i) 64
    if crc32c (b.take 60) = fieldAt b 60 4 then some (i, BitVec.ofNat 32 (fieldAt b 0 4)) else none
  let newest := best (pins.map Prod.snd)
  let at_ := match newest with
    | some q => (pins.find? fun p => p.2 = q).map Prod.fst
    | none => none
  let held := s.alm.held
  let s := { s with alm := { s.alm with
    ready := true
    held := []
    next := match best good with
      | some q => q + 1
      | none => 0
    pinNext := match at_ with
      | some i => (i + 1) % 3072
      | none => 0
    pinSeq := newest.getD 0 } }
  let s := s.setReg .almTorn 0 [] (BitVec.ofNat 32 torn)
  held.foldl State.almWrite s

/-! ### Commands -/

/-- R509: at the end of a second each merged combination is written as one REPEAT record, under its own BLOCK and UNIT. -/
def repeatFlush (s : State) : State :=
  let done := s.alm.merges.filter fun m => decide (m.second < s.second)
  let s := { s with alm := { s.alm with merges := s.alm.merges.filter fun m => decide (s.second ≤ m.second) } }
  done.foldl (fun s m =>
    if m.count = 0 then s
    else s.almWrite ⟨0x0060, 0, m.block, m.unit,
      leBytes 2 m.code ++ leBytes 1 m.block ++ leBytes 2 m.unit ++ leBytes 4 m.count⟩) s

def execRepeatFlush (s : State) : Host.Outcome State Fault Refusal := powered s (repeatFlush s)

/-- R512: a READ through the Almanac pins: 0x00 while the die owns the MRAM, and the address wraps. -/
def execAlmSpiRead (addr : BitVec 24) (n : Nat) (s : State) : Host.Outcome State Fault Refusal :=
  .next (s.send (.spi ((List.range n).map fun i =>
    if s.on then 0 else Memory.get 0 s.alm.mram ((addr.toNat + i) % 2^24))))

/-- R513: the MRAM window at offset 0x10_0000 of the ALM_ block. -/
def inAlmWindow (off : Nat) : Bool := decide (0x10100000 ≤ off) && decide (off < 0x11000000)

/-- A write to the window is ignored and recorded. -/
def execAlmWindowWrite (addr : BitVec 44) (val : Word) (s : State) : Host.Outcome State Fault Refusal :=
  powered s <|
    match regionOf addr.toNat with
    | .regs off => if inAlmWindow off then s.recordAccess addr.toNat 4 val.toNat else s
    | _ => s

end Sys2Proof.Machine
end

