-- ==== Sys2Proof/Machine/Crypto.lean ====
section
/-! DEFINITION. Ed448 and Ed448ph verification as RFC 8032 defines them (R293, R425, R474). -/

namespace Sys2Proof.Machine

/-- The field prime 2^448 − 2^224 − 1, the order of the base point, and the curve constant −39081 modulo p. -/
def edP : Nat := 2^448 - 2^224 - 1
def edL : Nat := 2^446 - 13818066809895115352007386748515426880336692474882178609894547503885
def edD : Nat := edP - 39081

/-- b^e mod m by its bits, most significant first; `n` bits. -/
def powModBits (b m : Nat) : Nat → Nat → Nat → Nat
  | 0, _, acc => acc
  | n + 1, e, acc =>
    let acc := acc * acc % m
    powModBits b m n e (if e.testBit n then acc * b % m else acc)

def powMod (b e m : Nat) : Nat := powModBits (b % m) m 448 e 1

/-- A point in projective coordinates. -/
structure EdPoint where
  x : Nat
  y : Nat
  z : Nat
  deriving DecidableEq, Repr

def edBase : EdPoint :=
  ⟨224580040295924300187604334099896036246789641632564134246125461686950415467406032909029192869357953282578032075146446173674602635247710,
   298819210078481492676017930443930673437544040154080242095928241372331506189835876003536878655418784733982303233503462500531545062832660, 1⟩

/-- The addition of RFC 8032, section 5.2.4; complete on the curve. -/
def edAdd (p q : EdPoint) : EdPoint :=
  let a := p.z * q.z % edP
  let b := a * a % edP
  let c := p.x * q.x % edP
  let d := p.y * q.y % edP
  let e := edD * (c * d % edP) % edP
  let f := (b + edP - e) % edP
  let g := (b + e) % edP
  let h := (p.x + p.y) * (q.x + q.y) % edP
  ⟨a * f % edP * ((h + 2 * edP - c - d) % edP) % edP, a * g % edP * ((d + edP - c) % edP) % edP, f * g % edP⟩

/-- A multiple of a point by the low `n` bits of a number. -/
def edMulBits (p : EdPoint) : Nat → Nat → EdPoint → EdPoint
  | 0, _, acc => acc
  | n + 1, k, acc =>
    let acc := edAdd acc acc
    edMulBits p n k (if k.testBit n then edAdd acc p else acc)

def edMul (p : EdPoint) (k : Nat) : EdPoint := edMulBits p 912 k ⟨0, 1, 1⟩

def edEq (p q : EdPoint) : Bool :=
  p.x * q.z % edP == q.x * p.z % edP && p.y * q.z % edP == q.y * p.z % edP

/-- Decoding of a point (RFC 8032, section 5.2.3). -/
def edDecode (l : List Byte) : Option EdPoint :=
  let v := leNat (l.take 57)
  let s := v / 2^455 % 2
  let y := v % 2^455
  if y ≥ edP then none
  else
    let u := (y * y + edP - 1) % edP
    let w := (edD * (y * y % edP) + edP - 1) % edP
    let u3w := u * u % edP * u % edP * w % edP
    let u5w3 := u3w * (u * u % edP) % edP * (w * w % edP) % edP
    let x := u3w * powMod u5w3 ((edP - 3) / 4) edP % edP
    if w * (x * x % edP) % edP = u % edP then
      (if x = 0 ∧ s = 1 then none else some ⟨if x % 2 = s then x else edP - x, y, 1⟩)
    else none

/-- The ASCII bytes of a name. -/
def ascii (n : String) : List Byte := n.toList.map fun c => BitVec.ofNat 8 c.toNat

/-- Verification with the cofactor (RFC 8032, section 5.2.7): `ph` selects Ed448ph, whose message is prehashed.
PRESUMED: log entry 52. -/
def edVerify (ph : Bool) (ctx : String) (key msg sig : List Byte) : Bool :=
  match edDecode key, edDecode sig with
  | some a, some r =>
    let s := leNat ((sig.drop 57).take 57)
    if s ≥ edL then false
    else
      let m := if ph then shake256 msg 64 else msg
      let c := ascii ctx
      let dom := ascii "SigEd448" ++ [if ph then 1#8 else 0#8, BitVec.ofNat 8 c.length] ++ c
      let k := leNat (shake256 (dom ++ sig.take 57 ++ key.take 57 ++ m) 114) % edL
      edEq (edMul edBase (4 * s)) (edMul (edAdd r (edMul a k)) 4)
  | _, _ => false

end Sys2Proof.Machine
end

