-- ==== Sys2Proof/Machine/Operands.lean ====
section
/-! DEFINITION. The operand forms: the descriptors of the engines and stream units read field by field, with what makes
each malformed, and the elements of stored rows. -/

namespace Sys2Proof.Machine

/-- Bit `n` of a number. -/
def bit (v n : Nat) : Bool := v / 2^n % 2 == 1

/-- A TALLY field of 16 bits (R40, R112): its index, its enable, and whether R143 refuses it. -/
def tallyBad16 (t : Nat) : Bool := bit t 14 || isJoinTally (t % 2^14)

/-! ### The tile instruction (R40) -/

structure TileD where
  opcode : Nat
  isOpen : Bool
  close : Bool
  split : Bool
  ta : Bool
  tb : Bool
  keepA : Bool
  bRing : Bool
  rowmask : Bool
  fmtA : Nat
  fmtB : Nat
  group : Nat
  modeF : Nat
  ringUnit : Nat
  m : Nat
  n : Nat
  k : Nat
  aAddr : Nat
  bAddr : Nat
  aStride : Nat
  bStride : Nat
  conv : Nat
  tally : Option (Nat × Nat)
  row0 : Nat
  col0 : Nat
  rsvd : Bool
  deriving DecidableEq, Repr

def tileD (l : List Byte) : TileD :=
  let b := fun i => fieldAt l i 1
  let fl := b 1
  let ctrl := b 3
  let a := fieldAt l 12 4
  let bb := fieldAt l 16 4
  let t := fieldAt l 26 2
  { opcode := b 0, isOpen := bit fl 0, close := bit fl 1, split := bit fl 2, ta := bit fl 3, tb := bit fl 4,
    keepA := bit fl 5, bRing := bit fl 6, rowmask := bit fl 7, fmtA := b 2 % 16, fmtB := b 2 / 16,
    group := ctrl % 4, modeF := bits ctrl 4 2, ringUnit := bits ctrl 6 5,
    m := fieldAt l 4 2, n := fieldAt l 6 2, k := fieldAt l 8 4, aAddr := a % 2^23, bAddr := bb % 2^23,
    aStride := fieldAt l 20 2, bStride := fieldAt l 22 2, conv := b 24 % 64,
    tally := if bit t 15 then some (t % 2^14, b 25) else none,
    row0 := 16 * fieldAt l 28 2, col0 := 16 * fieldAt l 30 2,
    rsvd := bit ctrl 7 || decide (a ≥ 2^23) || decide (bb ≥ 2^23) || decide (b 24 ≥ 64) || tallyBad16 t }

/-- R35: the mode that M selects. -/
def autoMode (m : Nat) : Nat := if m ≤ 16 then 4 else if m ≤ 32 then 3 else if m ≤ 64 then 2 else 1

/-- R33: rows, width and depth of a mode (1 SQUARE to 4 WIDE8). -/
def modeRows (mode : Nat) : Nat := 256 / 2^mode
def modeWidth (mode : Nat) : Nat := 64 * 2^mode
def modeDepth (mode fmtA : Nat) : Nat :=
  (if elemBits fmtA ≤ 8 then 4096 else if elemBits fmtA ≤ 16 then 2048 else 1024) * 2^(mode - 1)

/-- R34: half cycles per k step of a format. -/
def halfCycles (fmt : Nat) : Nat :=
  if elemBits fmt = 32 then 32 else if elemBits fmt = 16 then 4 else if elemBits fmt = 4 then 1 else 2

/-- R34: ⌈K · c⌉. -/
def streamCycles (fmtA fmtB k : Nat) : Nat := (k * max (halfCycles fmtA) (halfCycles fmtB) + 1) / 2

/-- The stored rows of an operand: their count and the elements of each. -/
def TileD.aShape (d : TileD) : Nat × Nat := if d.ta then (d.k, d.m) else (d.m, d.k)
def TileD.bShape (d : TileD) : Nat × Nat := if d.tb then (d.n, d.k) else (d.k, d.n)

/-- The end of an operand's extent (R41). -/
def extentEnd (addr stride fmt rows elems : Nat) : Nat := addr + (rows - 1) * stride * 64 + rowBytes fmt elems

/-- The format codes valid for a tile operand. -/
def tileFmtOk (f : Nat) : Bool := decide (f < 8)
def isIntOperand (f : Nat) : Bool := f == 6 || f == 7

/-! ### The conversion descriptor (R94) -/

structure ConvD where
  fmt : Nat
  round : Nat
  wrap : Bool
  hist : Bool
  biasEn : Bool
  clipEn : Bool
  biasFmt : Nat
  dest : Nat
  egressUnit : Nat
  scale : FVal
  clipLo : FVal
  clipHi : FVal
  outAddr : Nat
  outStride : Nat
  biasAddr : Nat
  tensorId : Nat
  bad : Bool
  deriving DecidableEq, Repr

def convD (l : List Byte) : ConvD :=
  let b := fun i => fieldAt l i 1
  let c := b 1
  let dst := b 3
  let oa := fieldAt l 16 4
  let os := fieldAt l 20 2
  let ba := fieldAt l 24 4
  let lo := fp32.decode (fieldAt l 8 4)
  let hi := fp32.decode (fieldAt l 12 4)
  let sc := fp32.decode (fieldAt l 4 4)
  let biasEn := bit c 4
  let clipEn := bit c 5
  let dest := dst % 4
  { fmt := b 0 % 16, round := c % 4, wrap := bit c 2, hist := bit c 3, biasEn, clipEn, biasFmt := b 2 % 16, dest,
    egressUnit := dst / 4 % 4, scale := sc, clipLo := lo, clipHi := hi, outAddr := oa % 2^23, outStride := os,
    biasAddr := ba % 2^23, tensorId := fieldAt l 28 4,
    bad := decide (b 0 ≥ 16) || decide (b 0 % 16 > 8) || decide (c ≥ 64) || decide (c % 4 ≥ 2) || decide (b 2 ≥ 16)
      || (biasEn && decide (b 2 % 16 > 3)) || (!biasEn && b 2 != 0) || decide (dst ≥ 16) || decide (dest ≥ 2)
      || (dest != 1 && dst / 4 % 4 != 0) || sc.isNan || sc.isInf || decide (oa ≥ 2^23) || decide (ba ≥ 2^23)
      || (!clipEn && (fieldAt l 8 4 != 0 || fieldAt l 12 4 != 0))
      || (clipEn && (lo.isNan || hi.isNan || !lo.le hi))
      || (dest == 1 && (oa != 0 || os != 0)) || (!biasEn && ba != 0)
      || oa % 64 != 0 || ba % 64 != 0 || fieldAt l 22 2 != 0 }

/-! ### The vector instruction (R112) -/

structure VecD where
  opcode : Nat
  maskEn : Bool
  rows : Bool
  bmode : Nat
  fmtA : Nat
  fmtD : Nat
  aux : Nat
  len : Nat
  rowLen : Nat
  srcA : Nat
  srcB : Nat
  dst : Nat
  mask : Nat
  imm : Nat
  tally : Option (Nat × Nat)
  rsvd : Bool
  deriving DecidableEq, Repr

def vecD (l : List Byte) : VecD :=
  let b := fun i => fieldAt l i 1
  let fl := b 1
  let t := fieldAt l 10 2
  let a := fieldAt l 12 4
  let sb := fieldAt l 16 4
  let ds := fieldAt l 20 4
  let mk := fieldAt l 24 4
  { opcode := b 0, maskEn := bit fl 0, rows := bit fl 1, bmode := fl / 4 % 4, fmtA := b 2 % 16, fmtD := b 2 / 16,
    aux := b 3, len := fieldAt l 4 3, rowLen := fieldAt l 8 2, srcA := a % 2^23, srcB := sb % 2^23, dst := ds % 2^23,
    mask := mk % 2^23, imm := fieldAt l 28 4,
    tally := if bit t 15 then some (t % 2^14, b 7) else none,
    rsvd := decide (fl ≥ 16) || decide (a ≥ 2^23) || decide (sb ≥ 2^23) || decide (ds ≥ 2^23) || decide (mk ≥ 2^23)
      || tallyBad16 t }

/-! ### The stream descriptor (R152) -/

structure StrD where
  opcode : Nat
  flags : Nat
  ordered : Bool
  persistent : Bool
  tallyEn : Bool
  mcast : Bool
  digestEn : Bool
  op : Nat
  ty : Nat
  mcastIdx : Nat
  digest : Nat
  tallyInc : Nat
  tally : Nat
  rowLen : Nat
  src : Nat
  dst : Nat
  n1 : Nat
  n2 : Nat
  s1 : Nat
  s2 : Nat
  d1 : Nat
  resI : Nat
  resJ : Nat
  resOff : Nat
  fenceAfter : Nat
  rsvd : Bool
  deriving DecidableEq, Repr

/-- SRC and DST: bit 63 selects the core's own scratchpad. -/
def isLocal (v : Nat) : Bool := bit v 63

/-- A fence byte is malformed: [7:5] reserved, SCOPE reserved or not 0 without a KIND. -/
def fenceBad (v : Nat) : Bool :=
  decide (v ≥ 32) || decide (v % 8 > 4) || (v / 8 % 4 == 0 && v % 8 != 0)

def strAddrBad (v : Nat) : Bool :=
  v % 64 != 0 || (if isLocal v then bits v 62 23 != 0 else bits v 62 48 != 0)

/-- DEDUCED: log entry 41. -/
def strD (l : List Byte) : StrD :=
  let b := fun i => fieldAt l i 1
  let w := fun i => fieldAt l i 4
  let fl := b 1
  let op := b 0
  let resumed := bit (w 52) 31
  { opcode := op, flags := fl, ordered := bit fl 0, persistent := bit fl 1, tallyEn := bit fl 2, mcast := bit fl 3,
    digestEn := bit fl 5, op := b 4 % 4, ty := b 4 / 4 % 4, mcastIdx := b 5 % 32, digest := b 6 % 64, tallyInc := b 7,
    tally := w 8 % 2^27, rowLen := w 12 % 2^24, src := fieldAt l 16 8, dst := fieldAt l 24 8, n1 := w 32 % 2^24,
    n2 := w 36 % 2^24, s1 := w 40, s2 := w 44, d1 := w 48, resI := w 52 % 2^24, resJ := w 56 % 2^24,
    resOff := w 60 % 2^24, fenceAfter := b 3,
    rsvd := decide (op = 0) || decide (op > 4) || bit fl 7 || fenceBad (b 2) || fenceBad (b 3)
      || (if op = 4 then decide (b 4 ≥ 16) || b 4 % 4 == 3 else b 4 != 0)
      || decide (b 5 ≥ 32) || (!bit fl 3 && b 5 != 0) || decide (b 6 ≥ 64) || (!bit fl 5 && b 6 != 0)
      || decide (w 8 ≥ 2^27) || (!bit (w 8) 26 && bits (w 8) 25 14 != 0) || isJoinTally (w 8 % 2^14)
      || decide (w 12 ≥ 2^24) || w 12 % 64 != 0
      || (op != 3 && strAddrBad (fieldAt l 16 8)) || (op == 3 && (fieldAt l 16 8 != 0 || w 40 != 0 || w 44 != 0))
      || (op != 2 && strAddrBad (fieldAt l 24 8)) || (op == 2 && (fieldAt l 24 8 != 0 || w 48 != 0))
      || decide (w 32 ≥ 2^24) || decide (w 36 ≥ 2^24) || w 40 % 64 != 0 || w 44 % 64 != 0 || w 48 % 64 != 0
      || bits (w 52) 30 24 != 0 || decide (w 56 ≥ 2^24) || decide (w 60 ≥ 2^24) || w 60 % 64 != 0
      || (!resumed && (w 52 != 0 || w 56 != 0 || w 60 != 0))
      || (bit fl 3 && op != 2) || (bit fl 5 && (op == 3 || op == 4))
      || (op == 4 && b 4 / 4 % 4 == 2 && w 12 % 192 != 0) }

/-! ### Elements of stored rows in the state -/

/-- The value of element i of a stored row at an address, and its poison. -/
def elemOf (s : State) (code addr i : Nat) : FVal × Bool :=
  let sp := elemSpan code i
  (elemVal code (elemAt code (fun j => s.byte (addr + j)) i), s.rangePoison (addr + sp.1) sp.2)

end Sys2Proof.Machine
end

