-- ==== Sys2Proof/Machine/Flags.lean ====
section
/-! DEFINITION. The status and flag computations: the error registers that a completion record sets, the engines'
sticky flags, and the completion rings (R55 to R57). -/

namespace Sys2Proof.Machine

/-- The completion rings, by core and stream unit. -/
inductive Eng where
  | mxe (k : Nat)
  | vxe (k : Nat)
  | str (k u : Nat)
  deriving DecidableEq, Repr

def engOf : EngineSel → Eng
  | .mxe k => .mxe k
  | .vxe k => .vxe k
  | .str k u => .str k u

namespace State

/-- The status of a record is none of OK, ZERO and CANCELLED. -/
def isErr (st : Nat) : Bool := !(st == 0 || st == 1 || st == 2)

/-- LAST_STATUS replaced and the status's bit set. -/
def errReg (s : State) (id : RegId) (inst : Nat) (ix : List Nat) (st mask : Nat) : State :=
  if isErr st then
    s.setReg id inst ix (BitVec.ofNat 32 (setBits (s.reg id inst ix).toNat 15 8 st ||| mask))
  else s

/-- The bit of MXE_ERR for a status (R61). -/
def mxeErrBit (st : Nat) : Nat :=
  if st = 0x30 then 1 else if st = 0x31 then 2 else if st = 0x32 then 4 else if st = 0x33 then 8
  else if st = 0x10 then 16 else 0
/-- The bit of VXE_ERR for a status (R137). -/
def vxeErrBit (st : Nat) : Nat := if st = 0x30 then 1 else if st = 0x31 then 2 else if st = 0x10 then 4 else 0
/-- The bit of STR_ERR for a status (R171). -/
def strErrBit (st : Nat) : Nat :=
  if st = 0x30 then 1 else if st = 0x31 then 2 else if st = 0x10 then 4 else if st = 0x11 then 8 else 0

end State

/-- R55: the ring is full when the indices are equal and the wrap bits differ. -/
def cplFull (head tail : BitVec 5) : Bool := head.toNat % 16 == tail.toNat % 16 && head != tail

/-- R56: is a write of HEAD accepted. -/
def headOk (old new tail : BitVec 5) : Bool := decide ((new - old).toNat ≤ (tail - old).toNat)

namespace State

/-! ### The completion rings -/

def cplHead (s : State) : Eng → BitVec 5
  | .mxe k => (s.mxe k).head
  | .vxe k => (s.vxe k).head
  | .str k u => (s.str k u).head
def cplTail (s : State) : Eng → BitVec 5
  | .mxe k => (s.mxe k).tail
  | .vxe k => (s.vxe k).tail
  | .str k u => (s.str k u).tail
def cplHeld (s : State) : Eng → List HeldCpl
  | .mxe k => (s.mxe k).held
  | .vxe k => (s.vxe k).held
  | .str k u => (s.str k u).held
def setCpl (s : State) (e : Eng) (head tail : BitVec 5) (held : List HeldCpl) : State :=
  match e with
  | .mxe k => s.modMxe k fun m => { m with head := head, tail := tail, held := held }
  | .vxe k => s.modVxe k fun m => { m with head := head, tail := tail, held := held }
  | .str k u => s.modStr k u fun m => { m with head := head, tail := tail, held := held }

/-- The address of a completion slot. A ring whose slots run past the end of its core's scratchpad goes on at the
addresses that follow. DESIGN CHOICE: log entry 115. -/
def cplSlot (s : State) (e : Eng) (i : Nat) : Nat :=
  match e with
  | .mxe k => scratchAddr k (64 * s.fld .mxeCplBase k [] 22 6 + 1088 * i)
  | .vxe k => scratchAddr k (64 * s.fld .vxeCplBase k [] 22 6 + 32 * i)
  | .str k u => scratchAddr k (64 * s.fld .strCplBase k [u] 22 6 + 32 * i)

def cplErr (s : State) (e : Eng) (st : Nat) : State :=
  match e with
  | .mxe k => s.errReg .mxeErr k [] st (mxeErrBit st)
  | .vxe k => s.errReg .vxeErr k [] st (vxeErrBit st)
  | .str k u => s.errReg .strErr k [u] st (strErrBit st)

/-- The cluster of an engine's core. -/
def engCluster : Eng → Nat
  | .mxe k => k / 8
  | .vxe k => k / 8
  | .str k _ => k / 8

/-- R57, R157: the tally of a completion in cluster `c`: a tally of this module, or a remote reference of R143, whose
add is lost toward a fenced module (R192). -/
def cplTally (s : State) (c : Nat) (t : Option (Nat × Nat)) : State :=
  match t with
  | none => s
  | some (ref, inc) =>
    let m := bits ref 25 14
    if bit ref 26 && s.dev.module.map BitVec.toNat != some m then
      if s.fenced.contains m then s.incReg .tlyRemoteLost c
      else s.send (.remoteTally m .add (ref % 2^14) (BitVec.ofNat 32 inc) 0)
    else s.addTally (ref % 2^14) inc

/-- R55, R57: the record is written with its TIME, then the histogram lies in the slot, the tail advances, the error
register follows, and the tally is applied. -/
def cplWrite (s : State) (e : Eng) (h : HeldCpl) : State :=
  let tail := s.cplTail e
  let a := s.cplSlot e (tail.toNat % 16)
  let s := s.store a (h.bytes ++ leBytes 8 s.pst.now)
  let s := if h.hist.isEmpty then s else s.store (a + 64) h.hist
  let s := s.setCpl e (s.cplHead e) (tail + 1) (s.cplHeld e)
  (s.cplErr e h.status.toNat).cplTally (engCluster e) h.tally

/-- A completion: written at once, or held behind a full ring in order (R55). -/
def complete (s : State) (e : Eng) (h : HeldCpl) : State :=
  if (s.cplHeld e).isEmpty && !cplFull (s.cplHead e) (s.cplTail e) then s.cplWrite e h
  else s.setCpl e (s.cplHead e) (s.cplTail e) (s.cplHeld e ++ [h])

/-- Held completions written while slots are free. -/
def drainHeld : Nat → State → Eng → State
  | 0, s, _ => s
  | n + 1, s, e =>
    match s.cplHeld e with
    | [] => s
    | h :: t =>
      if cplFull (s.cplHead e) (s.cplTail e) then s
      else drainHeld n ((s.setCpl e (s.cplHead e) (s.cplTail e) t).cplWrite e h) e

/-- The engine waits for a slot of its completion ring. -/
def cplWaits (s : State) (e : Eng) : Bool :=
  !(s.cplHeld e).isEmpty || cplFull (s.cplHead e) (s.cplTail e)

end State

end Sys2Proof.Machine
end

