-- ==== Sys2Proof/Machine/Matrix.lean ====
section
/-! DEFINITION. The matrix engine: folding, accumulation in blocks of 32, SPLIT partials, and the output pipeline
(chapters 2 to 4). -/

namespace Sys2Proof.Machine

/-- An operand element's encoding and its poison. -/
abbrev Elem := Nat × Bool

/-! ### Cells and blocks (R64 to R71) -/

/-- The integer of a finite value at exponent 0. -/
def FVal.toInt : FVal → Int
  | .fin s m _ => if s then -(m : Int) else m
  | _ => 0

/-- An integer cell's image: the value modulo 2^32 and its sign extension (R66). -/
def intImg (v : Int) : DWord := BitVec.ofInt 64 (Machine.toInt 32 (ofInt 32 v))

/-- The value of a cell as an integer. -/
def cellInt (c : Cell) : Int := Machine.toInt 32 c.img.toNat

/-- R66 to R71: one block entered into one cell: the products' exact sum and the cell's value, rounded once. The flag
says that an integer sum left the range. -/
def cellBlock (isInt : Bool) (fa fb : Nat) (c : Cell) (ps : List (Elem × Elem)) : Cell × Bool :=
  let poison := c.poison || ps.any fun p => p.1.2 || p.2.2
  let prods := ps.map fun p => FVal.mul (elemVal fa p.1.1) (elemVal fb p.2.1)
  if isInt then
    let t := cellInt c + (prods.map FVal.toInt).foldl (· + ·) 0
    (⟨intImg t, poison⟩, decide (t < -2147483648) || decide (t > 2147483647))
  else
    (⟨a40Image (rne40 (FVal.sum (a40Of c.img :: prods.map trunc40))), poison⟩, false)

/-- R79: a single addition of two cells. -/
def cellAdd (isInt : Bool) (a b : Cell) : Cell :=
  if isInt then ⟨intImg (cellInt a + cellInt b), a.poison || b.poison⟩
  else ⟨a40Image (rne40 (FVal.sum [a40Of a.img, a40Of b.img])), a.poison || b.poison⟩

def cellsAdd (isInt : Bool) (a b : Cells) : Cells := List.zipWith (List.zipWith (cellAdd isInt)) a b

def freshCells (isInt : Bool) (m n : Nat) : Cells :=
  List.replicate m (List.replicate n (if isInt then Cell.freshInt else Cell.fresh))

/-- Cell (r, c): the block's elements of A row r against those of B column c. -/
def blockRow (isInt : Bool) (fa fb : Nat) (a : List Elem) (b : List (List Elem)) : Nat → List Cell → List (Cell × Bool)
  | _, [] => []
  | c, cell :: t =>
    cellBlock isInt fa fb cell (List.zip a (b.map fun r => r.getD c (0, false))) :: blockRow isInt fa fb a b (c + 1) t

/-- A cell of these is NaN (R71). -/
def anyNan (isInt : Bool) (v : Cells) : Bool := !isInt && v.any fun l => l.any fun c => (a40Of c.img).isNan

/-- R69, R73: one block entered into every cell of a group's tile, with the group's flags. Cells of a partial tile outside
M and N are never held, so they set no flag. DESIGN CHOICE: log entry 112. -/
def enterBlock (fa fb : Nat) (g : Group) (a : List (List Elem)) (b : List (List Elem)) : Group :=
  let r := List.zipWith (fun row cells => blockRow g.isInt fa fb row b 0 cells) a g.cells
  let cells := r.map fun l => l.map Prod.fst
  let nb := g.blocks + 1
  { g with
    cells := cells
    blocks := nb
    partBlocks := g.partBlocks + 1
    iwrap := g.iwrap || r.any fun l => l.any Prod.snd
    nan := g.nan || anyNan g.isInt cells
    longSum := g.longSum || (!g.isInt && !g.split && decide (nb > 65536)) }

/-! ### Spill slots and the tree (R78, R79) -/

/-- The offset of cell (r, c) of a mode's tile in the image of a bank: the row bands of a WIDE mode lie one below the
other. DESIGN CHOICE: log entry 111. -/
def cellOff (mode r c : Nat) : Nat := 8 * (128 * (c / 128 * modeRows mode + r) + c % 128)

def slotAddr (k : Nat) (g : Group) (i : Nat) : Nat := scratchAddr k ((g.spillBase + i) * 131072)

/-- The cells of a spill slot. -/
def readSlot (s : State) (k : Nat) (g : Group) (i : Nat) : Cells :=
  (List.range g.m).map fun r => (List.range g.n).map fun c =>
    let a := slotAddr k g i + cellOff g.mode r c
    ⟨BitVec.ofNat 64 (leNat (s.bytes a 8)), s.linePoison a⟩

/-- The cells written into a spill slot, each line poisoned when a cell of it is; cells outside M and N are not written.
DESIGN CHOICE: log entry 111. -/
def writeSlot (s : State) (k : Nat) (g : Group) (i : Nat) (cells : Cells) : State :=
  let ps := (cells.mapIdx fun r row => row.mapIdx fun c cell => (slotAddr k g i + cellOff g.mode r c, cell)).flatten
  let s := ps.foldl (fun s p => (s.store p.1 (leBytes 8 p.2.img.toNat)).setPoison (p.1 / 64) false) s
  ps.foldl (fun s p => if p.2.poison then s.setPoison (p.1 / 64) true else s) s

/-- The first level that is not occupied. -/
def freeLevel (g : Group) : Nat := g.levels.findIdx (! ·)

/-- A value carried up through the occupied levels (R79). -/
def carryUp (s : State) (k : Nat) (g : Group) : Nat → Nat → Cells → Cells
  | 0, _, v => v
  | n + 1, l, v => carryUp s k g n (l + 1) (cellsAdd g.isInt (readSlot s k g l) v)

/-- The summary: the occupied levels, lowest first (R79). -/
def summarise (s : State) (k : Nat) (g : Group) : Option Cells :=
  (List.range (g.slots - 1)).foldl (fun q l =>
    if g.levels.getD l false then
      some (match q with
        | none => readSlot s k g l
        | some q => cellsAdd g.isInt (readSlot s k g l) q)
    else q) none

/-- R79, R80: the merge of a closed partial. A cell that becomes NaN in it sets the group's flag (R71). -/
def mergePartial (s : State) (k : Nat) (g : Group) : State × Group :=
  match g.merging with
  | none => (s, g)
  | some v =>
    let l := freeLevel g
    let v := carryUp s k g l 0 v
    let g := { g with levels := (g.levels.mapIdx fun i b => if i < l then false else b).set l true, merging := none,
                      nan := g.nan || anyNan g.isInt v }
    let s := writeSlot s k g l v
    match summarise s k g with
    | some q => (writeSlot s k g (g.slots - 1) q, { g with nan := g.nan || anyNan g.isInt q })
    | none => (s, g)

/-- The cells at close: the summary and the current partial added when a partial has closed (R79). -/
def closeCells (s : State) (k : Nat) (g : Group) : Cells :=
  if g.closed = 0 then g.cells else cellsAdd g.isInt (readSlot s k g (g.slots - 1)) g.cells

/-- A group's NAN flag set by a sum of it that still drains, unless the group has been opened again (R71, R72). -/
def noteNan (s : State) (k gi : Nat) (g : Group) : State :=
  if !g.nan then s
  else s.modMxe k fun m => { m with groups := modAt (fun x =>
    if x.opens = g.opens then { x with nan := true } else x) gi m.groups }

/-- The final cells of a tile of a closed group once no merge of it runs (R79, R80). -/
def settleTile (s : State) (k gi : Nat) (t : DrainTile) : State × DrainTile :=
  let (s, g) := mergePartial s k t.group
  let c := closeCells s k g
  let g := { g with nan := g.nan || anyNan g.isInt c }
  (noteNan s k gi g, { t with group := g, final := some c })

/-- The first draining tile whose merge still runs, of a group or of any, merged. -/
def mergeDrains (s : State) (k : Nat) (gi : Option Nat) : List MxeOut → Option (State × List MxeOut)
  | [] => none
  | .drain x :: t =>
    let g := (tileD x.ins.desc).group
    match x.tiles.findIdx? fun tl => tl.final.isNone with
    | some i =>
      if gi = none ∨ gi = some g then
        (x.tiles[i]?).map fun tl =>
          let (s, tl) := settleTile s k g tl
          (s, .drain { x with tiles := x.tiles.set i tl } :: t)
      else (mergeDrains s k gi t).map fun p => (p.1, .drain x :: p.2)
    | none => (mergeDrains s k gi t).map fun p => (p.1, .drain x :: p.2)
  | .ready h :: t => (mergeDrains s k gi t).map fun p => (p.1, .ready h :: p.2)

/-- R80: every merge that still runs behind a drain finishes: none can reach the close of another partial. -/
def settleDrains (s : State) (k : Nat) : State :=
  match mergeDrains s k none (s.mxe k).drains with
  | some (s, l) => s.modMxe k fun m => { m with drains := l }
  | none => s

/-- R77, R79: after its 65,536th block a partial closes, or finds the tree full: at that block SPLIT_FULL and LONG_SUM are
set. DESIGN CHOICE: log entry 110. -/
def closePartial (s : State) (k : Nat) (g : Group) : State × Group :=
  if g.split ∧ g.partBlocks = 65536 then
    let (s, g) := mergePartial (settleDrains s k) k g
    if g.slots ≤ 1 ∨ freeLevel g ≥ g.slots - 1 then
      (s, { g with splitFull := true, longSum := g.longSum || !g.isInt })
    else
      (s, { g with merging := some g.cells, cells := freshCells g.isInt g.m g.n, partBlocks := 0, closed := g.closed + 1 })
  else (s, g)

/-- R69: the blocks of one instruction over one output tile; `a` by row, `b` by k. -/
def enterBlocks (fa fb : Nat) (k : Nat) : Nat → List (List Elem) → List (List Elem) → State × Group → State × Group
  | 0, _, _, sg => sg
  | n + 1, a, b, (s, g) =>
    let g := enterBlock fa fb g (a.map fun r => r.take 32) (b.take 32)
    enterBlocks fa fb k n (a.map fun r => r.drop 32) (b.drop 32) (closePartial s k g)

/-! ### Operands (R39 to R41) -/

/-- A row of elements stored at an address. -/
def storedRow (s : State) (fmt addr n : Nat) : List Elem :=
  (List.range n).map fun i =>
    let sp := elemSpan fmt i
    (elemAt fmt (fun j => s.byte (addr + j)) i, s.rangePoison (addr + sp.1) sp.2)

/-- Rows `r0` to `r0 + m − 1` of A, elements `k0` to `k0 + n − 1` of each. -/
def loadA (s : State) (k : Nat) (d : TileD) (r0 m k0 n : Nat) : List (List Elem) :=
  let at_ := fun r => scratchAddr k (d.aAddr + r * d.aStride * 64)
  if d.ta then
    let st := (List.range n).map fun r => storedRow s d.fmtA (at_ (k0 + r)) d.m
    (List.range m).map fun i => st.map fun row => row.getD (r0 + i) (0, false)
  else (List.range m).map fun i => ((storedRow s d.fmtA (at_ (r0 + i)) d.k).drop k0).take n

/-- Columns `c0` to `c0 + n − 1` of B from the scratchpad, for the k steps `k0` to `k0 + len − 1`. -/
def loadB (s : State) (k : Nat) (d : TileD) (c0 n k0 len : Nat) : List (List Elem) :=
  let at_ := fun r => scratchAddr k (d.bAddr + r * d.bStride * 64)
  if d.tb then
    let st := (List.range n).map fun i => storedRow s d.fmtB (at_ (c0 + i)) d.k
    (List.range len).map fun j => st.map fun row => row.getD (k0 + j) (0, false)
  else (List.range len).map fun j => ((storedRow s d.fmtB (at_ (k0 + j)) d.n).drop c0).take n

/-- The elements of a row taken from a landing ring. -/
def takenElems (fmt : Nat) (r : TakenRow) (n : Nat) : List Elem :=
  (List.range n).map fun i =>
    let sp := elemSpan fmt i
    (elemAt fmt (fun j => r.bytes.getD j 0) i,
      r.poisonLines.any fun l => decide (l = sp.1 / 64) || decide (l = (sp.1 + sp.2 - 1) / 64))

/-- The k steps that one piece of a stream from a landing ring covers from `kDone` on, and the ring rows that carry them
(R40): a block of 32 rows of B, or under TB the `width` elements of K that a stored row of the ring holds, in whole blocks
of 128 stored rows. DESIGN CHOICE: log entry 108. -/
def ringPiece (d : TileD) (mode kDone cols : Nat) : Nat × Nat :=
  if d.tb then (min (modeWidth mode) (d.k - kDone), ceilDiv cols 128 * 128)
  else let n := min 32 (d.k - kDone); (n, n)

/-- The rows of B of such a piece, by k. -/
def ringB (d : TileD) (cols len : Nat) (rows : List TakenRow) : List (List Elem) :=
  if d.tb then
    let st := (rows.take cols).map fun r => takenElems d.fmtB r len
    (List.range len).map fun j => st.map fun row => row.getD j (0, false)
  else rows.map fun r => takenElems d.fmtB r cols

/-! ### The checks of R42 -/

/-- The tile counts of R36 for a mode. -/
structure Fold where
  mode : Nat
  rows : Nat
  width : Nat
  mTiles : Nat
  nTiles : Nat
  kTiles : Nat
  deriving DecidableEq, Repr

/-- R35, R36, R44: the mode in effect and its fold. -/
def foldOf (d : TileD) (g : Group) : Fold :=
  let mode := if d.modeF ≠ 0 then d.modeF else if !d.isOpen ∧ g.isOpen then g.mode else autoMode d.m
  let rows := modeRows mode
  let width := modeWidth mode
  ⟨mode, rows, width, ceilDiv d.m rows, ceilDiv d.n width, ceilDiv d.k (modeDepth mode d.fmtA)⟩

/-- R42 step 1. -/
def tileBad (s : State) (k : Nat) (d : TileD) (f : Fold) : Bool :=
  d.opcode != 1 || d.rsvd || !tileFmtOk d.fmtA || !tileFmtOk d.fmtB || decide (d.modeF > 4)
  || isIntOperand d.fmtA != isIntOperand d.fmtB || d.aAddr % 64 != 0 || d.bAddr % 64 != 0
  || decide (d.aStride < rowLines d.fmtA d.aShape.2)
  || (if d.bRing then
        d.bStride != 0 || s.fld .strRingCfg k [d.ringUnit] 15 0 == 0
        || decide (min (s.fld .strRingCfg k [d.ringUnit] 22 16) 64 < rowLines d.fmtB f.width)
      else decide (d.bStride < rowLines d.fmtB d.bShape.2) || d.ringUnit != 0)

/-- R44. -/
def groupConflict (d : TileD) (g : Group) (f : Fold) : Bool :=
  if d.isOpen then g.isOpen
  else !g.isOpen || g.m != d.m || g.n != d.n || g.mode != f.mode || g.split != d.split
    || g.isInt != isIntOperand d.fmtA

/-- The banks that open groups hold, and those that drains hold. -/
def heldBanks (m : Mxe) : List Nat := (m.groups.map fun g => if g.isOpen then g.banks else []).flatten
def drainBanks (m : Mxe) : List Nat :=
  (m.drains.map fun d => match d with
    | .drain d => d.banks
    | .ready _ => []).flatten

def freeBanks (m : Mxe) : List Nat := (List.range 4).filter fun b => !(heldBanks m).contains b

/-- R42: the status and detail of the first check that fails. -/
def tileCheck (s : State) (k : Nat) (d : TileD) (g : Group) (f : Fold) : Option (Status × Nat) :=
  if tileBad s k d f then some (.badDescriptor, 1)
  else if d.m = 0 ∨ d.n = 0 ∨ d.k = 0 then some (.zero, 0)
  else if d.m > 4096 ∨ d.n > 32768 ∨ d.k > 8388608
      ∨ extentEnd d.aAddr d.aStride d.fmtA d.aShape.1 d.aShape.2 > 2^23
      ∨ (d.bRing = false ∧ extentEnd d.bAddr d.bStride d.fmtB d.bShape.1 d.bShape.2 > 2^23) then some (.outOfRange, 0)
  else if groupConflict d g f then some (.badDescriptor, 4)
  else if (!(d.isOpen && d.close) ∧ (f.mTiles ≠ 1 ∨ f.nTiles ≠ 1)) ∨ (d.bRing = true ∧ f.mTiles ≠ 1) then
    some (.shapeUnsupported, 0)
  else if d.isOpen ∧ (freeBanks (s.mxe k)).length < (if d.split then 2 else 1) then some (.noResource, 0)
  else none

/-! ### Records (R54) -/

/-- The first 24 bytes of a tile completion record. DEDUCED: log entry 35. -/
def tileRec (st detail group mode : Nat) (seq : Word) (loads cycles : Nat) : List Byte :=
  leBytes 1 st ++ leBytes 1 (min detail 255) ++ leBytes 1 group ++ leBytes 1 mode ++ leBytes 4 seq.toNat
  ++ leBytes 2 0 ++ leBytes 2 (min loads 65535) ++ leBytes 4 0 ++ leBytes 8 (cycles % 2^48)

def groupByte (g : Nat) (opened closed longSum hist : Bool) : Nat :=
  g + opened.toNat * 4 + closed.toNat * 8 + longSum.toNat * 16 + hist.toNat * 32

/-- Completions at the front of what the engine still owes leave (R48). -/
def flushReady : Nat → State → Nat → State
  | 0, s, _ => s
  | n + 1, s, k =>
    match (s.mxe k).drains with
    | .ready h :: t => flushReady n ((s.modMxe k fun m => { m with drains := t }).complete (.mxe k) h) k
    | _ => s

/-- A tile completion in queue order: behind the drains that are still running, and behind an instruction that runs (R48). -/
def mxeFinish (s : State) (k : Nat) (h : HeldCpl) : State :=
  if (s.mxe k).run.isSome then s.modMxe k fun m => { m with behind := m.behind ++ [h] }
  else if (s.mxe k).drains.isEmpty then s.complete (.mxe k) h
  else s.modMxe k fun m => { m with drains := m.drains ++ [.ready h] }

/-- A completion of an instruction that R42 refuses, or that FLUSH removes. -/
def mxeStatus (s : State) (k : Nat) (i : TileIns) (st : Status) (detail : Nat) : State :=
  let d := tileD i.desc
  mxeFinish s k ⟨tileRec (statusCode st) detail d.group 0 i.seq 0 0, [], BitVec.ofNat 8 (statusCode st), d.tally⟩

/-! ### Pushes into a queue that frees (R144) -/

/-- A hart's push enters: it receives its SEQ and goes on. -/
def hartGo (s : State) (h rd : Nat) (v : DWord) : State :=
  s.modHart h fun t =>
    { t with hold := .running, pc := t.pc + 4, x := if rd = 0 then t.x else SMap.set t.x rd v }

def mxeIdle (m : Mxe) : Bool := m.queue.isEmpty && m.run.isNone && m.drains.isEmpty

/-- An instruction enters the matrix engine's queue. -/
def mxeEnqueue (s : State) (k : Nat) (desc : List Byte) : State × Word :=
  let m := s.mxe k
  (s.modMxe k fun m => { m with queue := m.queue ++ [{ desc, seq := m.seq, idle := mxeIdle m }], seq := m.seq + 1 }, m.seq)

/-- Waiting pushes enter while the matrix queue has room. -/
def mxeServe : Nat → State → Nat → State
  | 0, s, _ => s
  | n + 1, s, k =>
    match (s.mxe k).waiters with
    | [] => s
    | w :: t =>
      if (s.mxe k).queue.length < 8 then
        let s := s.modMxe k fun m => { m with waiters := t }
        let (s, q) := mxeEnqueue s k w.desc
        mxeServe n (hartGo s w.hart w.rd (q.setWidth 64)) k
      else s

/-! ### Running an instruction -/

/-- The landing ring's bytes per row (R169). -/
def ringRowBytes (s : State) (k u : Nat) : Nat := 64 * min (s.fld .strRingCfg k [u] 22 16) 64
def ringRowAddr (s : State) (k u slot : Nat) : Nat :=
  scratchAddr k (64 * s.fld .strRingBase k [u] 22 6 + slot * ringRowBytes s k u)

/-- What the landing ring gives a reader. -/
inductive RingTake where
  | rows (l : List TakenRow)
  | mark
  deriving DecidableEq, Repr

/-- An entry of a landing ring that is a row. -/
def isRow : RingEnt → Bool
  | .row _ _ => true
  | .mark _ => false

/-- Up to `n` rows consumed from a landing ring; a failure mark ends it and is consumed (R169). -/
def takeRing : Nat → State → Nat → Nat → List TakenRow → State × RingTake
  | 0, s, _, _, acc => (s, .rows acc.reverse)
  | n + 1, s, k, u, acc =>
    match (s.str k u).ring with
    | [] => (s, .rows acc.reverse)
    | .mark _ :: t => (s.modStr k u fun x => { x with ring := t }, .mark)
    | .row slot _ :: t =>
      let a := ringRowAddr s k u slot
      let len := ringRowBytes s k u
      takeRing n (s.modStr k u fun x => { x with ring := t }) k u (⟨s.bytes a len, s.poisonLines a len⟩ :: acc)

/-- R40, R53: the rows that the engine consumes now, of the `n` that a piece still needs. Under TB it takes a block of 128
stored rows only when all of them have landed, or when a failure mark stands among them. -/
def takeRows (s : State) (k : Nat) (d : TileD) (n : Nat) : State × RingTake :=
  if d.tb then
    let front := (s.str k d.ringUnit).ring.take 128
    if front.length < 128 ∧ !front.any (fun e => !isRow e) then (s, .rows []) else takeRing 128 s k d.ringUnit []
  else takeRing n s k d.ringUnit []

/-- The tag that a load of A tile (tm, tk) leaves (R38). -/
def tagOf (d : TileD) (mode tm tk : Nat) (buf : List (List Elem)) : ATag :=
  ⟨d.aAddr, d.aStride, d.fmtA, d.ta, d.m, mode, tm, tk, buf⟩

/-- R38: the tag matches an instruction whose first load is of tile (0, 0). -/
def tagMatches (t : Option ATag) (d : TileD) (mode : Nat) : Bool :=
  match t with
  | some t => t.addr == d.aAddr && t.stride == d.aStride && t.fmt == d.fmtA && t.ta == d.ta && t.m == d.m
      && t.mode == mode && t.tileM == 0 && t.tileK == 0
  | none => false

/-- R37, R58: the loads of an instruction. -/
def loadsOf (d : TileD) (f : Fold) (keep : Bool) : Nat :=
  (if f.kTiles = 1 then f.mTiles else f.mTiles * f.nTiles * f.kTiles) - (if d.keepA && keep then 1 else 0)

/-- The buffer that KEEP_A reuses for the first `n` elements of each row; elements beyond what was loaded are free values. DESIGN CHOICE: log entry 34. -/
def keptA (s : State) (buf : List (List Elem)) (d : TileD) (n : Nat) : List (List Elem) :=
  buf.mapIdx fun r row => row ++ (List.range (n - row.length)).map fun i =>
    (leNat ((List.range 4).map fun j => Config.freeByte s.freeCtr (4 * (65536 * r + i) + j)) % 2^elemBits d.fmtA, false)

/-- The ROWMASK bits that a drain samples (R51). -/
def sampleMask (s : State) (k : Nat) (d : TileD) : BitVec 128 :=
  if d.rowmask then
    BitVec.ofNat 128 ((s.reg .mxeRmask0 k).toNat + 2^32 * (s.reg .mxeRmask1 k).toNat + 2^64 * (s.reg .mxeRmask2 k).toNat
      + 2^96 * (s.reg .mxeRmask3 k).toNat)
  else 0

def setGroup (s : State) (k g : Nat) (x : Group) : State :=
  s.modMxe k fun m => { m with groups := modAt (fun _ => x) g m.groups }

/-- A group as an OPEN takes it, for one output tile (R72). -/
def openGroup (s : State) (k : Nat) (d : TileD) (mode m n opens : Nat) (banks : List Nat) : Group :=
  let isInt := isIntOperand d.fmtA
  let base := s.fld .mxeSpill k [d.group] 22 17
  let slots := if d.split then min (min (s.fld .mxeSpill k [d.group] 4 0) 16) (64 - base) else 0
  { isOpen := true, m, n, mode, split := d.split, isInt, banks, cells := freshCells isInt m n, slots, spillBase := base,
    levels := List.replicate (slots - 1) false, opens }

/-- The flags of a group that OR over the tiles of one instruction (R72). -/
def orFlags (a b : Group) : Group :=
  { b with longSum := a.longSum || b.longSum, iwrap := a.iwrap || b.iwrap, nan := a.nan || b.nan,
           splitFull := a.splitFull || b.splitFull }

/-- The tile counters of R73 in the registers. -/
def countGroup (s : State) (k gi prod : Nat) (g : Group) : State :=
  let s := s.setReg .mxeGblk k [gi] (BitVec.ofNat 32 (min g.blocks 0xFFFFFFFF))
  s.inc48 .mxeGprodLo .mxeGprodHi k [gi] prod

def zeroGroup (s : State) (k gi : Nat) : State :=
  ((s.setReg .mxeGblk k [gi] 0).setReg .mxeGprodLo k [gi] 0).setReg .mxeGprodHi k [gi]
    (s.reg .mxeGprodHi k [gi] &&& 0x80000000#32)

/-- The output tiles in the order of R37. -/
def tileOrder (f : Fold) : List (Nat × Nat) :=
  ((List.range f.mTiles).map fun m => (List.range f.nTiles).map fun n => (m, n)).flatten

/-- R95: the status and detail of the first check that fails of the conversion descriptor at an address. -/
def convCheck (s : State) (d : TileD) (addr : Nat) (c : ConvD) : Option (Status × Nat) :=
  if s.rangePoison addr 32 then some (.poison, 0)
  else if c.bad ∨ (c.dest = 0 ∧ c.outStride < rowLines c.fmt d.n) then some (.badDescriptor, 1)
  else if (c.dest = 0 ∧ extentEnd c.outAddr c.outStride c.fmt d.m d.n > 2^23)
      ∨ (c.biasEn = true ∧ c.biasAddr + rowBytes c.biasFmt d.n > 2^23) then some (.outOfRange, 0)
  else none

/-- The engine's counters after an instruction (R61). -/
def countRun (s : State) (k cycles stall : Nat) : State :=
  let s := s.inc48 .mxeBusyLo .mxeBusyHi k [] cycles
  if stall = 0 then s else s.inc48 .mxeLoadstallLo .mxeLoadstallHi k [] stall

/-- A wait's cycles: a free value when the wait came about. DESIGN CHOICE: log entry 33. -/
def waitCycles (s : State) (w : Bool) : State × Nat :=
  if w then let (v, s) := s.draw; (s, v.toNat) else (s, 0)

/-! ### The load sequencer (R60) -/

/-- The multicast set of a core's ring: the set of a running multicast descriptor of the same unit number that names it. -/
def multicastSet (s : State) (k u : Nat) : Option Nat :=
  let hit := s.cores.filterMap fun c =>
    (((c.2.str.getD u {}).active.filterMap id).find? fun r => r.set.contains k).map fun r =>
      (r.set.map fun i => 2^i).foldl (· + ·) 0
  hit.head?

/-- R60: must the core's next load wait for the window to end. -/
def mustStagger (s : State) (k : Nat) (d : TileD) : Option Nat :=
  if !d.bRing ∨ (s.cluster (k / 8)).autoEff = false then none
  else match multicastSet s k d.ringUnit with
    | none => none
    | some m => if (s.cluster (k / 8)).grants.any fun g => decide (g.1 = m) && decide (g.2 ≠ k) then some m else none

/-- A load granted in the running window. -/
def noteGrant (s : State) (k : Nat) (d : TileD) : State :=
  match multicastSet s k d.ringUnit with
  | some m => if d.bRing then s.modCluster (k / 8) fun c => { c with grants := c.grants ++ [(m, k)] } else s
  | none => s

/-! ### The running instruction (R37) -/

/-- The A tile (tm, kt) of an instruction: its first row and its rows, its first k and its elements (R36). -/
def aTile (d : TileD) (mode tm kt : Nat) : Nat × Nat × Nat × Nat :=
  let rows := modeRows mode
  let depth := modeDepth mode d.fmtA
  (tm * rows, min rows (d.m - tm * rows), kt * depth, min depth (d.k - kt * depth))

/-- The columns of column tile `tn`: the first and their number (R36). -/
def bTile (d : TileD) (mode tn : Nat) : Nat × Nat :=
  (tn * modeWidth mode, min (modeWidth mode) (d.n - tn * modeWidth mode))

/-- The output tiles of an instruction. -/
def tileCount (d : TileD) (mode : Nat) : Nat := ceilDiv d.m (modeRows mode) * ceilDiv d.n (modeWidth mode)

/-- R58: the cycles of an instruction so far: the start, its loads, the k steps streamed, the drains that nothing overlapped
of its finished tiles but the `pend` that have still to drain, and its waits. -/
def runCycles (d : TileD) (r : TileRun) (pend : Nat) : Nat :=
  let full := tileCount d r.mode - r.tiles.length
  let drains := if !d.close || r.drainBank then 0 else 128 * (full - pend)
  (if r.ins.idle then 20 else 0) + modeRows r.mode * r.loads + full * streamCycles d.fmtA d.fmtB d.k
    + streamCycles d.fmtA d.fmtB (if r.tiles.isEmpty then 0 else r.kDone) + drains + r.starve + r.stall

/-- A drain changed among what the engine owes. -/
def mapDrain (f : Drain → Drain) : MxeOut → MxeOut
  | .drain x => .drain (f x)
  | .ready h => .ready h

/-- The cycles of an instruction cover those of the earlier instructions' drains that it overlaps (R48). -/
def coverDrains (seq : Word) (c : Nat) (l : List MxeOut) : List MxeOut :=
  l.map (mapDrain fun x => if x.ins.seq = seq then x else { x with uncovered := x.uncovered - c })

/-- The instruction is over: its counters, its own completion when it leaves no drain, and the completions behind it. -/
def runEnd (s : State) (k : Nat) (r : TileRun) (cycles : Nat) (own : Option HeldCpl) : State :=
  let s := countRun s k cycles (modeRows r.mode * r.loads + r.stall)
  let s := s.modMxe k fun m => { m with
    run := none
    behind := []
    drains := coverDrains r.ins.seq cycles m.drains ++ (own.toList ++ m.behind).map MxeOut.ready }
  flushReady ((s.mxe k).drains.length + 1) s k

/-- The running instruction's own drain changed; it is the last that the engine owes. -/
def modOwnDrain (s : State) (k : Nat) (f : Drain → Drain) : State :=
  s.modMxe k fun m => { m with drains := modAt (mapDrain f) (m.drains.length - 1) m.drains }

/-- The running instruction's own drain. -/
def ownDrain (s : State) (k : Nat) : Option Drain :=
  match (s.mxe k).drains.getLast? with
  | some (.drain x) => if x.more then some x else none
  | _ => none

/-- Output tiles of the running instruction that still drain. -/
def undrained (s : State) (k : Nat) : Nat :=
  match ownDrain s k with
  | some x => x.tiles.length
  | none => 0

/-- R52: the instruction stops at a ring's failure mark: it writes no further output, and its group is discarded. Its
CYCLES are those it has run. DESIGN CHOICE: log entry 109. -/
def tileFaultHalt (s : State) (k : Nat) (r : TileRun) : State :=
  let d := tileD r.ins.desc
  let c := runCycles d r (undrained s k)
  let s := s.modMxe k fun m => { m with
    drains := if (ownDrain s k).isSome then m.drains.dropLast else m.drains
    groups := modAt (fun g => { g with isOpen := false, banks := [], cells := [], merging := none }) d.group m.groups }
  dropMember (runEnd s k r c (some ⟨tileRec 0x11 0 (groupByte d.group d.isOpen false false false) r.mode r.ins.seq r.loads c,
    [], 0x11#8, d.tally⟩)) k

/-- The group of an instruction that has entered its last block is free (R72). -/
def closeGroup (s : State) (k gi : Nat) : State :=
  s.modMxe k fun m => { m with
    groups := modAt (fun g => { g with isOpen := false, banks := [], cells := [], merging := none }) gi m.groups }

/-- The head of what the engine owes is a drain that begins: its first tile samples the row mask (R51). -/
def sampleHead (s : State) (k : Nat) : State :=
  match (s.mxe k).drains with
  | .drain x :: t =>
    match x.tiles with
    | tl :: rest =>
      if tl.rmask.isSome then s
      else s.modMxe k fun m => { m with
        drains := .drain { x with tiles := { tl with rmask := some (sampleMask s k (tileD x.ins.desc)) } :: rest } :: t }
    | [] => s
  | _ => s

/-- R47, R95, R96: the descriptor that the instruction's first drain reads, or the completion of an instruction that fails
it: its CYCLES go without a drain, and its group is lost. DESIGN CHOICE: log entry 109. -/
def readConv (s : State) (k : Nat) (r : TileRun) (g : Group) : Except HeldCpl (List Byte) :=
  let d := tileD r.ins.desc
  let addr := scratchAddr k (2048 * s.fld .mxeConvBase k [] 22 11 + 32 * d.conv)
  match convCheck s d addr (convD (s.bytes addr 32)) with
  | some (st, det) =>
    .error ⟨tileRec (statusCode st) det (groupByte d.group d.isOpen true g.longSum false) r.mode r.ins.seq r.loads
      (runCycles d r 1), [], BitVec.ofNat 8 (statusCode st), d.tally⟩
  | none => .ok (s.bytes addr 32)

/-- An output tile whose last block is in: the tile drains when the instruction closes its group, and the instruction goes
on to its next tile or ends (R37, R72). The answer says whether it goes on. -/
def tileClose (s : State) (k : Nat) (r : TileRun) (tm tn : Nat) : State × TileRun × Bool :=
  let d := tileD r.ins.desc
  let g := (s.mxe k).groups.getD d.group {}
  let r := { r with tiles := r.tiles.tail, kDone := 0, begun := false }
  if !d.close then
    let st : Status := if r.metPoison then .poison else .ok
    let c := runCycles d r 0
    (runEnd s k r c (some ⟨tileRec (statusCode st) 0 (groupByte d.group d.isOpen false false false) r.mode r.ins.seq r.loads c,
      [], BitVec.ofNat 8 (statusCode st), d.tally⟩), r, false)
  else
    match (match ownDrain s k with
      | some x => Except.ok x.conv
      | none => readConv s k r g) with
    | .error h => (runEnd (closeGroup s k d.group) k r (runCycles d r 1) (some h), r, false)
    | .ok l =>
      let last := r.tiles.isEmpty
      let t : DrainTile := ⟨tm * modeRows r.mode, tn * modeWidth r.mode, g, none, none⟩
      -- a merge of a tile before the last ends before its bank is used again; the last one's may still run (R80)
      let (s, t) := if g.merging.isSome && last then (s, t) else settleTile s k d.group t
      let s := if (ownDrain s k).isSome then s else s.modMxe k fun m => { m with
        drains := m.drains ++ [.drain { ins := r.ins, conv := l, opened := d.isOpen, mode := r.mode, more := true, banks := r.banks }] }
      let s := sampleHead (modOwnDrain s k fun x => { x with tiles := x.tiles ++ [t], metPoison := r.metPoison }) k
      if last then
        let c := runCycles d r 1
        let ls := ((s.mxe k).groups.getD d.group {}).longSum
        let s := modOwnDrain (closeGroup s k d.group) k fun x => { x with
          more := false, loads := r.loads, cycles := c + 128, longSum := ls, uncovered := 128
          mayOverlap := !(s.mxe k).queue.isEmpty }
        (runEnd s k r c none, r, false)
      else (s, r, true)

/-- The k steps `kDone` to `kDone + len − 1` of the current output tile entered, in blocks of 32 (R69), and the counters of
R73. -/
def enterSteps (s : State) (k : Nat) (r : TileRun) (tm tn kt len : Nat) (b : List (List Elem)) : State × TileRun :=
  let d := tileD r.ins.desc
  let (_, _, k0, _) := aTile d r.mode tm kt
  let _ := tn
  let buf := match (s.mxe k).tag with
    | some t => t.buf
    | none => []
  let a := buf.map fun row => (row.drop (r.kDone - k0)).take len
  let met := a.any (fun row => row.any Prod.snd) || b.any fun row => row.any Prod.snd
  let (s, g) := enterBlocks d.fmtA d.fmtB k (ceilDiv len 32) a b (s, (s.mxe k).groups.getD d.group {})
  let s := countGroup (setGroup s k d.group g) k d.group len g
  (s, { r with kDone := r.kDone + len, metPoison := r.metPoison || met })

/-- What one turn of a running instruction comes to. -/
inductive TileTurn where
  | on
  | wait
  | over
  deriving DecidableEq, Repr

/-- A wait on the landing ring is over: its cycles are counted (R53). DESIGN CHOICE: log entry 33. -/
def endStarve (s : State) (k : Nat) (r : TileRun) : State × TileRun :=
  if r.starved then
    let (v, s) := s.draw
    (s.inc48 .mxeStarveLo .mxeStarveHi k [] v.toNat, { r with starved := false, starve := r.starve + v.toNat })
  else (s, r)

/-- Steps streamed from the scratchpad: the rest of the depth tile. Steps streamed from a landing ring: the next piece, once
its rows have landed (R40, R53). -/
def tileStream (s : State) (k : Nat) (r : TileRun) (tm tn kt : Nat) : State × TileRun × TileTurn :=
  let d := tileD r.ins.desc
  let (c0, cols) := bTile d r.mode tn
  if d.bRing then
    let (len, need) := ringPiece d r.mode r.kDone cols
    match takeRows s k d (need - r.taken.length) with
    | (s, .mark) =>
      let (s, r) := endStarve s k r
      (tileFaultHalt s k r, r, .over)
    | (s, .rows l) =>
      if l.isEmpty ∧ r.taken.length < need then (s, { r with starved := true }, .wait)
      else
        let (s, r) := endStarve s k r
        let r := { r with taken := r.taken ++ l }
        if r.taken.length < need then (s, r, .on)
        else
          let (s, r) := enterSteps s k r tm tn kt len (ringB d cols len r.taken)
          (s, { r with taken := [] }, .on)
  else
    let (_, _, k0, n) := aTile d r.mode tm kt
    let len := k0 + n - r.kDone
    let (s, r) := enterSteps s k r tm tn kt len (loadB s k d c0 cols r.kDone len)
    (s, r, .on)

/-- The buffer takes A tile (tm, kt), by KEEP_A or by a load that the sequencer grants (R37, R38, R60). -/
def tileLoad (s : State) (k : Nat) (r : TileRun) (tm kt : Nat) : State × TileRun × TileTurn :=
  let d := tileD r.ins.desc
  let (r0, m, k0, n) := aTile d r.mode tm kt
  if d.keepA ∧ r.hold = none ∧ tm = 0 ∧ kt = 0 ∧ tagMatches (s.mxe k).tag d r.mode then
    (s.draw.2.modMxe k fun x => { x with tag := x.tag.map fun t => { t with buf := keptA s t.buf d n } },
      { r with hold := some (0, 0) }, .on)
  else if !r.granted ∧ (mustStagger s k d).isSome then (s, { r with staggerWait := true }, .wait)
  else
    let s := if r.granted then s else noteGrant s k d
    let (s, w) := waitCycles s r.granted
    (s.modMxe k fun x => { x with tag := some (tagOf d r.mode tm kt (loadA s k d r0 m k0 n)) },
      { r with hold := some (tm, kt), loads := r.loads + 1, granted := false, stall := r.stall + w }, .on)

/-- An output tile begins: it has its bank, its cells start at −0 and its counters at 0 (R72). -/
def tileBegin (s : State) (k : Nat) (r : TileRun) (tm tn : Nat) : State × TileRun × TileTurn :=
  let d := tileD r.ins.desc
  if undrained s k > (if r.drainBank then 1 else 0) then (s, r, .wait)
  else
    let g := (s.mxe k).groups.getD d.group {}
    let (_, m, _, _) := aTile d r.mode tm 0
    let (_, n) := bTile d r.mode tn
    (setGroup (zeroGroup s k d.group) k d.group (orFlags g (openGroup s k d r.mode m n g.opens r.banks)), { r with begun := true }, .on)

/-- One turn of the running instruction: an output tile ends or begins, the buffer takes an A tile, or k steps stream. -/
def tileTurn (s : State) (k : Nat) (r : TileRun) : State × TileRun × TileTurn :=
  let d := tileD r.ins.desc
  match r.tiles with
  | [] => (s, r, .over)
  | (tm, tn) :: _ =>
    let kt := r.kDone / modeDepth r.mode d.fmtA
    if !r.begun then tileBegin s k r tm tn
    else if r.kDone = d.k then
      let (s, r, on) := tileClose s k r tm tn
      (s, r, if on then .on else .over)
    else if r.hold ≠ some (tm, kt) then tileLoad s k r tm kt
    else tileStream s k r tm tn kt

/-- The running instruction goes on as far as it can (R37). DEDUCED: log entry 32. -/
def tileGo : Nat → State → Nat → TileRun → State
  | 0, s, k, r => s.modMxe k fun m => { m with run := some r }
  | n + 1, s, k, r =>
    match tileTurn s k r with
    | (s, r, .on) => tileGo n s k r
    | (s, r, .wait) => s.modMxe k fun m => { m with run := some r }
    | (s, _, .over) => s

/-- Turns that an instruction can still take. -/
def tileFuel (d : TileD) (mode : Nat) : Nat := tileCount d mode * (3 * ceilDiv d.k 32 + 8 * ceilDiv d.n 128 + 8) + 8

/-! ### Starting an instruction -/

/-- Byte ranges that overlap. -/
def overlaps (a la b lb : Nat) : Bool := decide (a < b + lb) && decide (b < a + la)

/-- The spill area of an instruction (R78): what its group sampled when it opened, or what an OPEN samples now. -/
def spillArea (s : State) (k : Nat) (d : TileD) (g : Group) : Nat × Nat :=
  if d.isOpen then
    let base := s.fld .mxeSpill k [d.group] 22 17
    (base, min (min (s.fld .mxeSpill k [d.group] 4 0) 16) (64 - base))
  else (g.spillBase, g.slots)

/-- R180: an operand or spill extent overlaps the output of a drain that still runs. -/
def overlapsDrain (m : Mxe) (d : TileD) (spill : Nat × Nat) : Bool :=
  m.drains.any fun x => match x with
    | .ready _ => false
    | .drain r =>
      let t := tileD r.ins.desc
      let c := convD r.conv
      let o := extentEnd c.outAddr c.outStride c.fmt t.m t.n - c.outAddr
      c.dest == 0 &&
        (overlaps d.aAddr (extentEnd d.aAddr d.aStride d.fmtA d.aShape.1 d.aShape.2 - d.aAddr) c.outAddr o
          || (!d.bRing && overlaps d.bAddr (extentEnd d.bAddr d.bStride d.fmtB d.bShape.1 d.bShape.2 - d.bAddr) c.outAddr o)
          || (d.split && overlaps (spill.1 * 131072) (spill.2 * 131072) c.outAddr o))

/-- The banks that an opening instruction takes, and whether one of them is a drain bank (R46). -/
def wantBanks (m : Mxe) (d : TileD) (f : Fold) : Nat × Bool :=
  let need := if d.split then 2 else 1
  let extra := decide (f.mTiles * f.nTiles > 1) && d.close && decide ((freeBanks m).length > need)
  (need + extra.toNat, extra)

/-- R48, R72: the head of the queue cannot start before an earlier drain ends: it was not in the queue in time, or it opens
a group on banks that still drain. -/
def waitsBanks (m : Mxe) (d : TileD) (f : Fold) : Bool :=
  (m.drains.any fun o => match o with
    | .drain x => !x.mayOverlap
    | .ready _ => false)
  || (d.isOpen && decide (((freeBanks m).filter fun b => !(drainBanks m).contains b).length < (wantBanks m d f).1))

/-- An instruction that passes R42 starts: it has its banks, and a group that it opens is open (R46, R72). -/
def tileRun0 (s : State) (k : Nat) (i : TileIns) (d : TileD) (f : Fold) : State × TileRun :=
  let m := s.mxe k
  let g := m.groups.getD d.group {}
  let free := (freeBanks m).filter fun b => !(drainBanks m).contains b
  let banks := if d.isOpen then free.take (wantBanks m d f).1 else g.banks
  let r : TileRun := { ins := i, mode := f.mode, banks, drainBank := d.isOpen && (wantBanks m d f).2, tiles := tileOrder f, begun := true }
  let (_, rows, _, _) := aTile d f.mode 0 0
  let (_, cols) := bTile d f.mode 0
  if d.isOpen then (setGroup (zeroGroup s k d.group) k d.group (openGroup s k d f.mode rows cols (g.opens + 1) banks), r)
  else (s, r)

/-- The head of the queue starts: R42, then its loads and streaming (R37), once no earlier drain stands in its way. -/
def tileStart (s : State) (k : Nat) (i : TileIns) (rest : List TileIns) : State :=
  let d := tileD i.desc
  let m := s.mxe k
  let g := m.groups.getD d.group {}
  let f := foldOf d g
  let take := fun (s : State) => mxeServe 8 (s.modMxe k fun m => { m with queue := rest }) k
  match tileCheck s k d g f with
  | some (st, det) => mxeStatus (take s) k i st det
  | none =>
    if waitsBanks m d f then s
    else
      let (s, r) := tileRun0 (take s) k i d f
      if overlapsDrain m d (spillArea s k d g) then s.modMxe k fun m => { m with run := some { r with overlap := true } }
      else tileGo (tileFuel d f.mode) s k r

/-- The running instruction continues: a wait for an earlier drain ends with it and is counted (R180); a load that the
sequencer has not granted waits on (R60). -/
def tileContinue (s : State) (k : Nat) (r : TileRun) : State :=
  let d := tileD r.ins.desc
  if r.staggerWait then s
  else if r.overlap then
    if overlapsDrain (s.mxe k) d (spillArea s k d ((s.mxe k).groups.getD d.group {})) then s
    else
      let (s, w) := waitCycles s true
      tileGo (tileFuel d r.mode) s k { r with overlap := false, stall := r.stall + w }
  else tileGo (tileFuel d r.mode) s k r

/-- The engine may start instructions: ENABLE, and no completion held (R55, R61). -/
def mxeMayStart (s : State) (k : Nat) : Bool := s.fld .mxeCtrl k [] 0 0 == 1 && (s.mxe k).held.isEmpty

/-- R42: the head of a core's matrix queue starts, or the running instruction goes on. -/
def execTile (k : CoreIx) (s : State) : Host.Outcome State Fault Refusal :=
  powered s <|
    if s.coreFallow k then s
    else match (s.mxe k).run with
      | some r => tileContinue s k r
      | none =>
        if mxeMayStart s k then
          match (s.mxe k).queue with
          | [] => s
          | i :: rest => tileStart s k i rest
        else s

/-! ### The output pipeline (R93 to R106) -/

/-- R93: y of one element before conversion. A y that equals a bound it is not beyond stays as it is, its sign with it.
DESIGN CHOICE: log entry 114. -/
def pipeY (c : ConvD) (isInt : Bool) (bias : FVal) (cell : Cell) : FVal :=
  let y := if isInt then FVal.ofInt (cellInt cell) else a40Of cell.img
  let y := rne40 (FVal.mul y c.scale)
  let y := if c.biasEn then rne40 (FVal.add y bias) else y
  if !c.clipEn || y.isNan then y
  else
    let y := if y.lt c.clipLo then c.clipLo else y
    if c.clipHi.lt y then c.clipHi else y

/-- R100: the random number of output element (m, n). -/
def pipeRandom (s : State) (k : Nat) (d : TileD) (c : ConvD) (m n : Nat) : Nat :=
  philoxWord0 (s.reg .mxeSeedLo k).toNat (s.reg .mxeSeedHi k).toNat (d.col0 + n) (d.row0 + m) c.tensorId 0 % 65536

/-- An output row segment: the elements' encodings, which of them are poisoned, the histogram bins, and the flags. -/
structure RowOut where
  elems : List Nat
  poison : List Bool
  bins : List Nat
  flags : ConvFlags
  deriving DecidableEq, Repr

/-- R93, R101, R103: one row of an output tile through the pipeline. -/
def pipeRow (s : State) (k : Nat) (d : TileD) (c : ConvD) (isInt : Bool) (m n0 : Nat) (cells : List Cell) : RowOut :=
  let r := cells.mapIdx fun i cell =>
    let n := n0 + i
    let (bv, bp) := if c.biasEn then elemOf s c.biasFmt (scratchAddr k c.biasAddr) n else (FVal.nan, false)
    let y := pipeY c isInt bv cell
    if cell.poison || bp then (nanOf c.fmt, true, 256, poisonOut)
    else
      let (e, fl) := convOut c.fmt (if c.round = 1 then some (pipeRandom s k d c m n) else none) c.wrap y
      (e, false, histBin y, fl)
  ⟨r.map fun x => x.1, r.map fun x => x.2.1, (r.map fun x => x.2.2.1).filter (· < 256),
    r.foldl (fun f x => f ||| x.2.2.2) 0⟩

/-- The lines of a packed row that hold a poisoned element. -/
def poisonedLines (fmt : Nat) (p : List Bool) : List Nat :=
  ((p.mapIdx fun i b => (i, b)).filterMap fun x =>
    if x.2 then let sp := elemSpan fmt x.1; some [sp.1 / 64, (sp.1 + sp.2 - 1) / 64] else none).flatten

/-- A packed row written line by line at an address, the named lines poisoned. -/
def writeRow (s : State) (a : Nat) (b : List Byte) (bad : List Nat) : State :=
  (List.range (ceilDiv b.length 64)).foldl (fun s i =>
    s.writeLine (a + 64 * i) ((b.drop (64 * i)).take 64) (bad.contains i)) s

def bumpHist (h : List Nat) (bins : List Nat) : List Nat := bins.foldl (fun h b => modAt (· + 1) b h) h

/-- Lines that an egress queue holds (R153: 32 KiB). -/
def egressLines (u : StrUnit) : Nat := (u.egress.map fun r => ceilDiv r.bytes.length 64).foldl (· + ·) 0

/-- The rows of one tile drained from row `r` on; the drain stops where an egress queue is full. -/
def drainRows (k : Nat) (d : TileD) (c : ConvD) (t : DrainTile) (cells : Cells) :
    Nat → State → Drain → State × Drain × Bool
  | 0, s, x => (s, x, true)
  | n + 1, s, x =>
    let r := x.row
    if r ≥ cells.length then (s, x, true)
    else
      let m := t.m0 + r
      if (t.rmask.getD 0).getLsbD (m % 128) then drainRows k d c t cells n s { x with row := r + 1 }
      else
        let o := pipeRow s k d c t.group.isInt m t.n0 (cells.getD r [])
        let b := packRow c.fmt o.elems
        let bad := poisonedLines c.fmt o.poison
        let x' := { x with row := r + 1, curPoison := x.curPoison || !bad.isEmpty,
                           hist := if c.hist then bumpHist x.hist o.bins else x.hist }
        let flag := fun (s : State) => s.orReg .mxeConvStatus k [] (o.flags.setWidth 32)
        if c.dest = 1 then
          if egressLines (s.str k c.egressUnit) + ceilDiv b.length 64 > 512 then
            (s, { x with egressWait := true, waited := true }, false)
          else
            let s := flag (s.modStr k c.egressUnit fun u => { u with egress := u.egress ++ [⟨b, bad⟩] })
            drainRows k d c t cells n s x'
        else
          let a := scratchAddr k (c.outAddr + m * c.outStride * 64 + (elemSpan c.fmt t.n0).1)
          drainRows k d c t cells n (flag (writeRow s a b bad)) x'

/-- The cycles that an instruction's drain added by waiting (R54, R80, R153): a merge holds it up for at most 8,192 cycles,
which count as load stalls too; a full egress queue for any number. DESIGN CHOICE: log entry 33. -/
def drainWait (s : State) (k : Nat) (x : Drain) : State × Nat :=
  let (s, w) := waitCycles s x.mergeWait
  let w := w % 8193
  let s := if w = 0 then s else s.inc48 .mxeLoadstallLo .mxeLoadstallHi k [] w
  let (s, e) := waitCycles s x.waited
  (s, w + e)

/-- The completion of a drained instruction (R54, R106). -/
def drainCpl (s : State) (k : Nat) (x : Drain) : State × HeldCpl :=
  let d := tileD x.ins.desc
  let c := convD x.conv
  let (s, extra) := drainWait s k x
  let s := s.inc48 .mxeBusyLo .mxeBusyHi k [] (x.uncovered + extra)
  let st : Status := if x.poisonTiles > 0 || x.metPoison then .poison else .ok
  (s, ⟨tileRec (statusCode st) x.poisonTiles (groupByte d.group x.opened true x.longSum c.hist) x.mode x.ins.seq x.loads
        (x.cycles + extra),
      if c.hist then (x.hist.map fun v => leBytes 4 (min v 0xFFFFFFFF)).flatten else [],
      BitVec.ofNat 8 (statusCode st), d.tally⟩)

/-- The next tile of the oldest drain goes on as far as it can: a tile whose merge still runs waits for it (R80). The answer
says whether it has written its last row. -/
def drainTile (s : State) (k : Nat) (x : Drain) : State × Drain × Bool :=
  let d := tileD x.ins.desc
  match x.tiles with
  | [] => (s, x, !x.more)
  | t :: rest =>
    match t.final with
    | none => (s, { x with mergeWait := true }, false)
    | some cells =>
      match drainRows k d (convD x.conv) t cells (cells.length + 1) s { x with egressWait := false } with
      | (s, x, true) =>
        (s, { x with tiles := rest, row := 0, curPoison := false, poisonTiles := x.poisonTiles + x.curPoison.toNat }, true)
      | (s, x, false) => (s, x, false)

/-- The oldest drain's tile is written out; after the instruction's last one its record and tally follow, and the next
drain begins (R48, R72). DEDUCED: log entry 32. -/
def drainGo (s : State) (k : Nat) : State :=
  match (s.mxe k).drains with
  | .drain x :: t =>
    match drainTile s k x with
    | (s, x, true) =>
      if x.tiles.isEmpty && !x.more then
        let (s, h) := drainCpl s k x
        let s := s.modMxe k fun m => { m with drains := t }
        sampleHead (flushReady (t.length + 1) (s.complete (.mxe k) h) k) k
      else sampleHead (s.modMxe k fun m => { m with drains := .drain x :: t }) k
    | (s, x, false) => s.modMxe k fun m => { m with drains := .drain x :: t }
  | _ => s

/-- R72: the last output row of an output tile of a closing group is written. -/
def execTileDrainDone (k : CoreIx) (s : State) : Host.Outcome State Fault Refusal :=
  powered s (if s.coreFallow k then s else drainGo s k)

/-- The oldest drain waits for room in a unit's egress queue. -/
def drainWaitsOn (s : State) (k u : Nat) : Bool :=
  match (s.mxe k).drains with
  | .drain x :: _ => x.egressWait && decide ((convD x.conv).egressUnit = u)
  | _ => false

/-- R153: room frees in a full egress queue, and the drain that waited on it goes on. -/
def execEgressQueueSpace (k : CoreIx) (u : UnitIx) (s : State) : Host.Outcome State Fault Refusal :=
  powered s (if !s.coreFallow k && drainWaitsOn s k u then drainGo s k else s)

/-- R80: the background merge of a closed partial finishes. -/
def execPartialMergeDone (k : CoreIx) (g : UnitIx) (s : State) : Host.Outcome State Fault Refusal :=
  powered s <|
    match mergeDrains s k (some g) (s.mxe k).drains with
    | some (s, l) => s.modMxe k fun m => { m with drains := l }
    | none =>
      let (s, x) := mergePartial s k ((s.mxe k).groups.getD g {})
      setGroup s k g x

/-- The load sequencer's grants at the end of a window: of each set the lowest core that waits is granted its load.
DESIGN CHOICE: log entry 113. -/
def grantWaiters : List Nat → State → List (Nat × Nat) → State × List (Nat × Nat)
  | [], s, acc => (s, acc)
  | k :: t, s, acc =>
    match (s.mxe k).run with
    | some r =>
      let d := tileD r.ins.desc
      match multicastSet s k d.ringUnit with
      | some m =>
        if r.staggerWait ∧ !acc.any fun g => g.1 = m then
          grantWaiters t (s.modMxe k fun x => { x with run := some { r with staggerWait := false, granted := true } })
            (acc ++ [(m, k)])
        else grantWaiters t s acc
      | none =>
        -- a core that has left its set waits for no window
        if r.staggerWait then
          grantWaiters t (s.modMxe k fun x => { x with run := some { r with staggerWait := false, granted := true } }) acc
        else grantWaiters t s acc
    | none => grantWaiters t s acc

/-- R60: the load sequencer's window ends; of each set one waiting core is granted its load. -/
def execStaggerWindowEnd (c : ClusterIx) (s : State) : Host.Outcome State Fault Refusal :=
  powered s <|
    let (s, g) := grantWaiters ((List.range 8).map fun i => 8 * c.val + i) s []
    s.modCluster c fun x => { x with grants := g }

/-! ### Control (R56, R61) -/

/-- The matrix engine is busy: an instruction is queued or running (R61). -/
def mxeBusy (s : State) (k : Nat) : Bool := !mxeIdle (s.mxe k)

/-- R61: every open group closed without output or record; while busy the write is ignored and recorded.
DESIGN CHOICE: log entry 22. -/
def mxeDiscard (s : State) (k : Nat) (val : Nat := 4) : State :=
  if mxeBusy s k then s.recordReg .mxeCtrl k [] val
  else s.modMxe k fun m => { m with groups := m.groups.map fun g =>
    { g with isOpen := false, banks := [], cells := [], merging := none } }

def execMxeDiscardGroups (k : CoreIx) (s : State) : Host.Outcome State Fault Refusal := powered s (mxeDiscard s k)

/-- R61: every queued instruction completes with CANCELLED. -/
def mxeFlush (s : State) (k : Nat) : State :=
  let q := (s.mxe k).queue
  let s := s.modMxe k fun m => { m with queue := [] }
  mxeServe 8 (q.foldl (fun s i => mxeStatus s k i .cancelled 0) s) k

def execMxeFlush (k : CoreIx) (s : State) : Host.Outcome State Fault Refusal := powered s (mxeFlush s k)

/-- R61: ENABLE takes effect at once. -/
def execMxeEnable (k : CoreIx) (en : Bool) (s : State) : Host.Outcome State Fault Refusal :=
  powered s (s.setFld .mxeCtrl k [] 0 0 en.toNat)

/-- R56: a write of HEAD frees slots, or leaves HEAD unchanged and is recorded. -/
def headWrite (s : State) (e : Eng) (head : BitVec 5) : State :=
  if headOk (s.cplHead e) head (s.cplTail e) then
    State.drainHeld ((s.cplHeld e).length + 1) (s.setCpl e head (s.cplTail e) (s.cplHeld e)) e
  else match e with
    | .mxe k => s.recordReg .mxeCplHead k [] head.toNat
    | .vxe k => s.recordReg .vxeCplHead k [] head.toNat
    | .str k u => s.recordReg .strCplHead k [u] head.toNat

def execCplHeadWrite (e : EngineSel) (head : BitVec 5) (s : State) : Host.Outcome State Fault Refusal :=
  powered s (headWrite s (engOf e) head)

end Sys2Proof.Machine
end

