-- ==== Sys2Proof/Machine/Translate.lean ====
section
/-! DEFINITION. Where an access goes: global addresses (R31), the walk of the page tables and its causes of failure
(R158 to R160), the cached translations (R159), and the lines read and written here or on a peer. -/

namespace Sys2Proof.Machine

/-- The module's own ID, none for a reserve (R21, R22). -/
def State.ownId (s : State) : Option Nat := s.dev.module.map BitVec.toNat

/-- Does a module ID belong to the job (R31). -/
def State.inJob (s : State) (m : Nat) : Bool :=
  match s.plan with
  | some p => p.modules.any fun x => decide (x.toNat = m)
  | none => false

/-- Does a core belong to the job; without a plan no core is outside one. -/
def State.coreInJob (s : State) (k : Nat) : Bool :=
  match s.plan with
  | some p => p.cores.getLsbD k
  | none => true

/-- R530: does a plan allocate a core, a tally, a context or an addressable shared-cache part of a cluster to its job: its
CLUSTERS name the shared-cache parts, beside the reduction points of its collectives, and the thresher's tallies are
tallies of the job. -/
def planOwns (p : Plan) (c : Nat) : Bool :=
  p.clusters.getLsbD c || (List.range 8).any (fun i => p.cores.getLsbD (8 * c + i))
  || p.contexts.any (fun x => decide (x.1.val = c)) || p.tallies.any (fun t => decide (t.toNat / 1024 = c))
  || p.thresher.any (fun t => decide (t.rsv / 1024 = c) || decide (t.ret / 1024 = c))
  || p.collectives.any fun x => x.point.any fun y => decide (y.val = c)

/-- R530: the loaded plan allocates something of the cluster to its job. -/
def State.jobOwns (s : State) (c : Nat) : Bool :=
  match s.plan with
  | some p => planOwns p c
  | none => false

/-- What becomes of an access to a global address (R28, R31). -/
inductive Loc where
  | here (a : Nat)
  | peer (g : Nat)
  | refused
  deriving DecidableEq, Repr

/-- DEDUCED: log entry 23. -/
def State.locate (s : State) (g : Nat) : Loc :=
  if g ≥ 2^56 then .refused
  else
    let m := g / 2^44
    if s.ownId = some m then (if s.lineOk (g % 2^44) then .here (g % 2^44) else .refused)
    else if s.inJob m then .peer g
    else .refused

/-! ### The walk -/

/-- The causes of R160. -/
inductive XCause where
  | notValid | writeDenied | badEntry | tierTimeout | notHeld | atomicTarget | tablePoison
  deriving DecidableEq, Repr

def XCause.code : XCause → Nat
  | .notValid => 1 | .writeDenied => 2 | .badEntry => 3 | .tierTimeout => 4 | .notHeld => 5 | .atomicTarget => 6
  | .tablePoison => 7

/-- How a walk ends: at a leaf, or failing at the entry at an address of the level given. -/
inductive Walk where
  | leaf (entry level : Nat)
  | fail (c : XCause) (level addr : Nat)
  deriving DecidableEq, Repr

/-- Where an index of a level starts in the virtual address. -/
def levelShift (l : Nat) : Nat := if l = 4 then 16 else 48 - 9 * l
def levelEntries (l : Nat) : Nat := if l = 4 then 32 else 512

/-- R158: levels `l` to 4 from the table at an address. -/
def walkFrom : Nat → State → Nat → Nat → Nat → State × Walk
  | 0, s, _, l, t => (s, .fail .badEntry l t)
  | n + 1, s, va, l, t =>
    let a := t + 8 * (va / 2^levelShift l % levelEntries l)
    if t % 4096 ≠ 0 ∨ a ≥ s.dramCap then (s, .fail .badEntry l a)
    else
      let s := s.noteRead (a / 64 * 64)
      if s.linePoison a then (s, .fail .tablePoison l a)
      else
        let e := leNat (s.bytes a 8)
        let leaf := bit e 1
        let addr := bits e 55 12 * 4096
        if !bit e 0 then (s, .fail .notValid l a)
        else if bits e 11 3 ≠ 0 ∨ (leaf ∧ l < 3) ∨ (!leaf ∧ l = 4) then (s, .fail .badEntry l a)
        else if leaf then
          if addr % (if l = 3 then 2^21 else 2^16) ≠ 0 then (s, .fail .badEntry l a) else (s, .leaf e l)
        else if addr ≥ s.dramCap then (s, .fail .badEntry l a)
        else walkFrom n s va (l + 1) addr

/-- The root table of a context (R172). -/
def xltRoot (s : State) (c ctx : Nat) : Nat :=
  bits (s.reg .xltRootLo c [ctx]).toNat 31 12 * 2^12 + bits (s.reg .xltRootHi c [ctx]).toNat 11 0 * 2^32

def walk (s : State) (c ctx va : Nat) : State × Walk := walkFrom 4 (s.incReg .xltMiss c) va 1 (xltRoot s c ctx)

/-- R159: a translation kept; when all 4,096 places are taken, one is replaced. DESIGN CHOICE: log entry 42. -/
def cacheXlt (s : State) (c : Nat) (e : TlbEnt) : State :=
  let l := (s.cluster c).tlb
  if l.length < 4096 then s.modCluster c fun x => { x with tlb := l ++ [e] }
  else
    let v := Config.replaced s.freeCtr % 4096
    { s.modCluster c fun x => { x with tlb := l.take v ++ l.drop (v + 1) ++ [e] } with freeCtr := s.freeCtr + 1 }

/-- The leaf that translates an address, from the cache or by a walk. -/
def findLeaf (s : State) (c ctx va : Nat) : State × Except XCause TlbEnt :=
  let p := va / 65536
  match (s.cluster c).tlb.find? fun e => e.ctx == ctx && decide (e.page ≤ p) && decide (p < e.page + e.pages) with
  | some e => (s, .ok e)
  | none =>
    match walk s c ctx va with
    | (s, .fail x _ _) => (s, .error x)
    | (s, .leaf e l) =>
      let n := if l = 3 then 32 else 1
      let t : TlbEnt := ⟨ctx, p / n * n, n, BitVec.ofNat 64 e⟩
      (cacheXlt s c t, .ok t)

/-- R158 to R160: the global address of a job-virtual one. -/
def translate (s : State) (c ctx va : Nat) (wr : Bool) : State × Except XCause Nat :=
  let va := va % 2^48
  if s.fld .xltCtrl c [] 0 0 = 0 then (s, .error .notValid)
  else
    match findLeaf s c ctx va with
    | (s, .error x) => (s, .error x)
    | (s, .ok e) =>
      if wr && !bit e.leaf.toNat 2 then (s, .error .writeDenied)
      else (s, .ok (bits e.leaf.toNat 55 12 * 4096 + (va - e.page * 65536)))

/-! ### Lines, here or on a peer -/

/-- A line read at a located address. A register window is no memory: its line reads 0 and is recorded (R4), with
width 64 and value 0. DESIGN CHOICE: log entry 117. -/
def readLoc (s : State) : Loc → State × List Byte × Bool
  | .here a =>
    match regionOf a with
    | .regs _ => (s.recordAccess a 64 0, List.replicate 64 0, false)
    | _ => (s.noteRead a, s.bytes a 64, s.linePoison a)
  | .peer g =>
    ({ s with freeCtr := s.freeCtr + 1 }, (List.range 64).map fun i => Config.peerByte s.freeCtr (g + i),
      Config.peerPoison s.freeCtr (g / 64))
  | .refused => (s, List.replicate 64 0, false)

/-- Bytes within one line written at a located address. A line written to a register window writes nothing and is
recorded (R4) with width 64 and value 0: no rule says which 4 bytes of the line R508's record holds.
DESIGN CHOICE: log entry 117. -/
def writeLoc (s : State) (l : Loc) (b : List Byte) (p : Bool) : State :=
  match l with
  | .here a =>
    match regionOf a with
    | .regs _ => s.recordAccess a 64 0
    | _ => s.writeLine a b p
  | .peer g => s.send (.peerWrite g b p)
  | .refused => s

end Sys2Proof.Machine
end

