-- ==== Sys2Proof/Machine/Streams.lean ====
section
/-! DEFINITION. The stream units, the drill and the translation unit's commands (chapter 6, and R296, R297, R300 to R302
of chapter 11). -/

namespace Sys2Proof.Machine

/-! ### Queues (R144, R152) -/

def strEnqueue (s : State) (k u : Nat) (desc : List Byte) : State × Word :=
  let q := (s.str k u).seq
  let i : TileIns := { desc, seq := q, idle := false, issue := s.issue }
  ({ s with issue := s.issue + 1 }.modStr k u fun x => { x with queue := x.queue ++ [i], seq := q + 1 }, q)

/-- Waiting pushes enter while a unit's queue has room. -/
def strServe : Nat → State → Nat → Nat → State
  | 0, s, _, _ => s
  | n + 1, s, k, u =>
    match (s.str k u).waiters with
    | [] => s
    | w :: t =>
      if (s.str k u).queue.length < 16 then
        let s := s.modStr k u fun x => { x with waiters := t }
        let (s, q) := strEnqueue s k u w.desc
        strServe n (hartGo s w.hart w.rd (q.setWidth 64)) k u
      else s

/-! ### Landing rings (R169) -/

def ringRows (s : State) (k u : Nat) : Nat := s.fld .strRingCfg k [u] 15 0

/-- Rows that a ring holds; a failure mark does not count. -/
def ringFill (x : StrUnit) : Nat := (x.ring.filter isRow).length

/-- The run that an entry belongs to. -/
def RingEnt.born : RingEnt → Nat
  | .row _ b => b
  | .mark b => b

/-- The first slot at or after `i`, of `rows` slots, that holds no row. DESIGN CHOICE: log entry 118. -/
def freeRingSlot (l : List RingEnt) (rows : Nat) : Nat → Nat → Nat
  | 0, i => i
  | n + 1, i =>
    let held := l.any fun e => match e with
      | .row slot _ => decide (slot = i)
      | .mark _ => false
    if held then freeRingSlot l rows n ((i + 1) % rows) else i

/-- R169: the rows of a failed run give way to a failure mark: the rows of the runs that started earlier stay ahead of it,
those of later ones stand behind it. -/
def ringFailed (born : Nat) (l : List RingEnt) : List RingEnt :=
  l.filter (fun e => decide (e.born < born)) ++ .mark born :: l.filter fun e => decide (born < e.born)

/-- R168: the rings that a failed RING descriptor marks: its own unit's, and those of its multicast set. -/
def failRings (s : State) (k u born : Nat) (set : List Nat) : State :=
  (nsInsert k set).foldl (fun s m => s.modStr m u fun x => { x with ring := ringFailed born x.ring }) s

/-- The cores of a drill mask. -/
def maskCores (s : State) (c n : Nat) : List Nat :=
  (List.range 128).filter fun i => (s.reg .drlMask c [n, i / 32]).getLsbD (i % 32)

/-- R168: a status with which a RING descriptor fails. -/
def ringFails (d : StrD) (st : Status) : Bool :=
  d.opcode == 2 && statusCode st != 0 && statusCode st != 1 && decide (st ≠ .poison)

/-! ### Completion (R157) -/

def strRec (st detail opcode flags : Nat) (seq : Word) (faults dropped bytes : Nat) : List Byte :=
  leBytes 1 st ++ leBytes 1 (min detail 255) ++ leBytes 1 opcode ++ leBytes 1 flags ++ leBytes 4 seq.toNat ++ leBytes 2 0
  ++ leBytes 1 (min faults 255) ++ leBytes 1 dropped ++ leBytes 4 0 ++ leBytes 8 (bytes % 2^48)

def strTally (d : StrD) : Option (Nat × Nat) := if d.tallyEn then some (d.tally, d.tallyInc) else none

/-- A descriptor that never ran completes; a failed RING marks its rings, under MCAST by the mask as it stands (R168). -/
def strStatus (s : State) (k u : Nat) (desc : List Byte) (seq : Word) (st : Status) (detail : Nat) : State :=
  let d := strD desc
  let s := if ringFails d st then
      failRings { s with issue := s.issue + 1 } k u s.issue (if d.mcast then maskCores s (k / 8) d.mcastIdx else [])
    else s
  s.complete (.str k u) ⟨strRec (statusCode st) detail d.opcode d.flags seq 0 0 0, [], BitVec.ofNat 8 (statusCode st),
    strTally d⟩

/-- R164: a run of a persistent descriptor has ended; its slot is idle. -/
def persIdle (s : State) (k u : Nat) (p : Option Nat) : State :=
  match p with
  | none => s
  | some i => s.modStr k u fun x => { x with pers := modAt (Option.map fun e => { e with busy := false }) i x.pers }

/-- A run completes and leaves its active slot; one that ends with FAULT_HALT takes its core out of the running multicast
sets (R168). -/
def strEnd (s : State) (k u slot : Nat) (r : StrRun) (st : Status) (detail : Nat) : State :=
  let d := strD r.desc
  let s := s.modStr k u fun x => { x with active := modAt (fun _ => none) slot x.active }
  let s := if ringFails d st then failRings s k u r.born r.set else s
  let s := if st = .faultHalt then dropMember s k else s
  let s := s.complete (.str k u) ⟨strRec (statusCode st) detail d.opcode d.flags r.seq r.faults r.dropped r.bytes, [],
    BitVec.ofNat 8 (statusCode st), strTally d⟩
  persIdle s k u r.pers

/-- How a run that has moved all its rows completes (R153, R156, R297). -/
def strResult (s : State) (k : Nat) (r : StrRun) : Status × Nat :=
  let d := strD r.desc
  let g := SMap.get {} (s.cluster (k / 8)).digests d.digest
  if r.badRow then (.badDescriptor, 3)
  else if r.poisonMet || (d.digestEn && r.digDone && bit g.status 3) then (.poison, min r.marks.length 255)
  else if d.digestEn && r.digBeyond then (.sigFail, 3)
  else if d.digestEn && r.digDone && bit g.status 2 then (.sigFail, 2)
  else (.ok, 0)

/-! ### Digest slots (R296, R297) -/

def digLen (s : State) (c n : Nat) : Nat :=
  (s.reg .drlDigLenLo c [n]).toNat + 2^32 * s.fld .drlDigLenHi c [n] 15 0
def digExp (s : State) (c n : Nat) : List Byte :=
  ((List.range 16).map fun w => leBytes 4 (s.reg .drlDigExp c [n, w]).toNat).flatten

/-- The hash finished: RES, the comparison of MODE, and DONE. -/
def digFinish (s : State) (c n : Nat) (g : DigestSlot) : DigestSlot :=
  let res := g.sponge.finish 64
  let mode := s.fld .drlDigCtrl c [n] 2 1
  let eq := if mode = 0 then res == digExp s c n else res.take 8 == (digExp s c n).take 8
  let cmp := if mode ≥ 2 then 0 else if eq then 2 else 4
  { g with result := res, status := 1 + (if g.poisoned then 12 else cmp) }

/-- A line absorbed; bytes beyond LEN set MISMATCH. -/
def digAbsorb (s : State) (c n : Nat) (r : StrRun) (b : List Byte) (p : Bool) : State × StrRun :=
  let g := SMap.get {} (s.cluster c).digests n
  let rem := digLen s c n - g.absorbed
  let take := if bit g.status 0 then 0 else min rem b.length
  let g := { g with sponge := g.sponge.absorb (b.take take), absorbed := g.absorbed + take,
                    poisoned := g.poisoned || (p && decide (0 < take)) }
  let fin := !bit g.status 0 && decide (g.absorbed ≥ digLen s c n)
  let g := if fin then digFinish s c n g else g
  let excess := decide (take < b.length)
  let g := if excess && !bit g.status 2 then { g with status := (g.status ||| 4) - (if bit g.status 1 then 2 else 0) } else g
  (s.modCluster c fun x => { x with digests := SMap.set x.digests n g },
    { r with digDone := r.digDone || fin, digBeyond := r.digBeyond || excess })

/-! ### Moving one line (R153) -/

/-- Why a run stands. -/
inductive StrStop where
  | moved
  | waits
  | fault (c : XCause) (va : Nat)
  /-- `window`: the line lies beyond the addressable part of a live cluster's cache (R149), not at an address of R28 -/
  | refused (window : Bool)
  deriving DecidableEq, Repr

/-- DEDUCED: log entry 43. -/
def strCtx (s : State) (k u : Nat) : Nat := s.fld .strCtrl k [u] 6 4

/-- Where an address of a descriptor lies: the core's own scratchpad, or what the translation gives. -/
def strLoc (s : State) (k u base off : Nat) (wr : Bool) : State × Except StrStop Loc :=
  if isLocal base then (s, .ok (.here (scratchAddr k (bits base 22 0 + off))))
  else
    let va := (bits base 47 0 + off) % 2^48
    match translate s (k / 8) (strCtx s k u) va wr with
    | (s, .error x) => (s, .error (.fault x va))
    | (s, .ok g) =>
      match s.locate g with
      | .refused =>
        let window := match regionOf (g % 2^44) with
          | .cache c _ => decide (g < 2^56) && decide (s.ownId = some (g / 2^44)) && !s.clusterFallow c
          | _ => false
        (s, .error (.refused window))
      | l => (s, .ok l)

def srcOff (d : StrD) (r : StrRun) : Nat := r.i * d.s1 + r.j * d.s2 + r.off
def dstOff (d : StrD) (r : StrRun) : Nat := (r.j * d.n1 + r.i) * d.d1 + r.off

/-- The position one line further. -/
def advance (d : StrD) (r : StrRun) : StrRun :=
  if r.off + 64 < d.rowLen then { r with off := r.off + 64 }
  else if r.i + 1 < d.n1 then { r with off := 0, i := r.i + 1 }
  else { r with off := 0, i := 0, j := r.j + 1 }

def finished (d : StrD) (r : StrRun) : Bool := decide (r.j ≥ d.n2)

/-- A poisoned source line met, with the destination lines that it marks (R156, R157). -/
def notePoison (r : StrRun) (met : Bool) (lines : List Nat) : StrRun :=
  { r with poisonMet := r.poisonMet || met, marks := lines.foldl (fun l n => nsInsert n l) r.marks }

/-- The destination line that a run stands at, by its offset from DST. -/
def dstLine (d : StrD) (r : StrRun) : Nat := dstOff d r / 64

/-- What the drill does with a source line: DRL_BYTES, and the digest slot absorbs it. -/
def drillLine (s : State) (k : Nat) (d : StrD) (r : StrRun) (b : List Byte) (p : Bool) : State × StrRun :=
  let s := if d.mcast || d.digestEn then s.inc48 .drlBytesLo .drlBytesHi (k / 8) [] 64 else s
  if d.digestEn then digAbsorb s (k / 8) d.digest r b p else (s, r)

/-- DEDUCED: log entry 39. -/
def copyLine (s : State) (k u : Nat) (d : StrD) (r : StrRun) : State × StrRun × StrStop :=
  match strLoc s k u d.src (srcOff d r) false with
  | (s, .error e) => (s, r, e)
  | (s, .ok ls) =>
    match strLoc s k u d.dst (dstOff d r) true with
    | (s, .error e) => (s, r, e)
    | (s, .ok ld) =>
      let (s, b, p) := readLoc s ls
      let (s, r) := drillLine s k d r b p
      (writeLoc s ld b p, advance d { notePoison r p (if p then [dstLine d r] else []) with bytes := r.bytes + 64 }, .moved)

/-- The rings a run delivers into. -/
def ringTargets (k : Nat) (d : StrD) (r : StrRun) : List Nat := if d.mcast then r.set else [k]

/-- Another run stands within a row toward the ring of a core. -/
def ringHeldByOther (s : State) (k u : Nat) (seq : Word) (m : Nat) : Bool :=
  s.cores.any fun c =>
    ((c.2.str.getD u {}).active.filterMap id).any fun x =>
      let d := strD x.desc
      d.opcode == 2 && decide (x.off ≠ 0) && !(c.1 == k && x.seq == seq) && (ringTargets c.1 d x).contains m

/-- R167: every ring has a free row. -/
def ringsReady (s : State) (k u : Nat) (d : StrD) (r : StrRun) : Bool :=
  (ringTargets k d r).all fun m => decide (ringFill (s.str m u) < ringRows s m u) && !ringHeldByOther s k u r.seq m

/-- A line of a ring row, written into the next slot of a member's ring; the row's last line pads it with zeros. -/
def ringPut (u : Nat) (d : StrD) (born off : Nat) (b : List Byte) (p : Bool) (s : State) (m : Nat) : State :=
  let rows := ringRows s m u
  let slot := if off = 0 then freeRingSlot (s.str m u).ring rows rows (s.str m u).ringNext else (s.str m u).ringNext
  let s := s.modStr m u fun x => { x with ringNext := slot }
  let a := ringRowAddr s m u slot
  let s := s.writeLine (a + off) b p
  if off + 64 < d.rowLen then s
  else
    let pad := ringRowBytes s m u - d.rowLen
    (s.write (a + d.rowLen) (List.replicate pad 0)).modStr m u fun x =>
      { x with ring := x.ring ++ [.row slot born], ringNext := (slot + 1) % rows }

def ringLine (s : State) (k u : Nat) (d : StrD) (r : StrRun) : State × StrRun × StrStop :=
  if !ringsReady s k u d r then (s, r, .waits)
  else
    match strLoc s k u d.src (srcOff d r) false with
    | (s, .error e) => (s, r, e)
    | (s, .ok ls) =>
      let (s, b, p) := readLoc s ls
      let (s, r) := drillLine s k d r b p
      let s := (ringTargets k d r).foldl (ringPut u d r.born r.off b p) s
      let last := decide (r.off + 64 ≥ d.rowLen)
      (s, advance d { notePoison r p (if p then [64 * r.rows + r.off / 64] else []) with
        bytes := r.bytes + 64, rows := r.rows + last.toNat }, .moved)

/-- The row at the head of the egress queue is consumed. -/
def popEgress (s : State) (k u : Nat) : State := s.modStr k u fun x => { x with egress := x.egress.drop 1 }

/-- An EGRESS run that started earlier on the unit still owes rows: they are its own (R153). -/
def egressOwed (s : State) (k u : Nat) (r : StrRun) : Bool :=
  ((s.str k u).active.filterMap id).any fun x => (strD x.desc).opcode == 3 && decide (x.born < r.born)

def egressLine (s : State) (k u : Nat) (d : StrD) (r : StrRun) : State × StrRun × StrStop :=
  if egressOwed s k u r then (s, r, .waits)
  else match (s.str k u).egress with
  | [] => (s, r, .waits)
  | e :: _ =>
    if ceilDiv e.bytes.length 64 ≠ d.rowLen / 64 then
      (popEgress s k u, advance d { r with off := d.rowLen - 64, badRow := true }, .moved)
    else
      match strLoc s k u d.dst (dstOff d r) true with
      | (s, .error x) => (s, r, x)
      | (s, .ok ld) =>
        let b := (e.bytes.drop r.off).take 64
        let p := e.poisonLines.contains (r.off / 64)
        let s := writeLoc s ld b p
        let s := if r.off + 64 ≥ d.rowLen then popEgress s k u else s
        (s, advance d { notePoison r p (if p then [dstLine d r] else []) with bytes := r.bytes + b.length }, .moved)

/-! ### Atomics (R195, R196) -/

/-- The format code of an ATOMIC TYPE: FP32, BF16, F12W, INT32. -/
def atomicFmt (ty : Nat) : Nat := if ty = 0 then 0 else if ty = 1 then 1 else if ty = 2 then 3 else 8

/-- R196: one combine of encodings. -/
def combine (op ty d s : Nat) : Nat :=
  if ty = 3 then
    let a := toInt 32 d
    let b := toInt 32 s
    if op = 0 then (d + s) % 2^32 else if op = 1 then ofInt 32 (if b < a then b else a)
    else ofInt 32 (if a < b then b else a)
  else
    let f := if ty = 0 then fp32 else if ty = 1 then bf16 else f12w
    let a := f.decode d
    let b := f.decode s
    let v : FVal :=
      if a.isNan || b.isNan then .nan
      else if op = 0 then FVal.add a b
      else
        -- −0 is less than +0
        let less : Bool := a.lt b || (a.isZero && b.isZero && a.sign && !b.sign)
        if op = 1 then (if less then a else b) else (if less then b else a)
    if ty = 2 then (convFloat f none v).1
    else (v.rnd f).enc f

/-- The elements of a row whose last byte lies in the line at `off`, with their spans. -/
def lineElems (fmt off : Nat) : List (Nat × Nat × Nat) :=
  let per := if fmt = 3 then 2 * off / 3 + 46 else (off + 64) / (elemBits fmt / 8)
  let first := if fmt = 3 then 2 * off / 3 - 2 else off / (elemBits fmt / 8)
  ((List.range (per - first)).map fun j => let sp := elemSpan fmt (first + j); (first + j, sp.1, sp.2)).filter fun e =>
    decide (off < e.2.1 + e.2.2) && decide (e.2.1 + e.2.2 ≤ off + 64)

/-- One element combined: `at_` gives the address of each byte of the row's destination, `src` the bytes of its source.
Both elements of an F12W pair share a byte; only the pair's three bytes change, each at its own address. -/
def combineAt (op ty i : Nat) (at_ : Nat → Nat) (src : Nat → Byte) (s : State) : State :=
  let fmt := atomicFmt ty
  let sp := elemSpan fmt i
  let v := combine op ty (elemAt fmt (fun j => s.byte (at_ j)) i) (elemAt fmt src i)
  if fmt = 3 then
    let p := 3 * (i / 2)
    let b := fun j => (s.byte (at_ (p + j))).toNat
    let b1 := if i % 2 = 0 then b 1 / 16 * 16 + v / 256 else b 1 % 16 + v % 16 * 16
    let s := s.store (at_ (p + 1)) [BitVec.ofNat 8 b1]
    if i % 2 = 0 then s.store (at_ p) [BitVec.ofNat 8 v] else s.store (at_ (p + 2)) [BitVec.ofNat 8 (v / 16)]
  else s.store (at_ sp.1) (leBytes sp.2 v)

/-- The lines of the row that hold any part of an element. -/
def elemLines (sp : Nat × Nat × Nat) : List Nat := [sp.2.1 / 64, (sp.2.1 + sp.2.2 - 1) / 64].eraseDups

def isCache (a : Nat) : Bool := match regionOf a with
  | .cache _ _ => true
  | _ => false

/-- The line of a run before the one it stands at, of which an F12W element that ends here may hold a byte: its source
bytes and poison, and the local address of its destination. -/
def lineBefore (s : State) (k u : Nat) (d : StrD) (r : StrRun) : State × List Byte × Bool × Option Nat :=
  let (s, b, p) := match strLoc s k u d.src (srcOff d r - 64) false with
    | (s, .ok l) => readLoc s l
    | (s, .error _) => (s, List.replicate 64 0, false)
  match strLoc s k u d.dst (dstOff d r - 64) true with
  | (s, .ok (.here a)) => (s, b, p, some a)
  | (s, _) => (s, b, p, none)

/-- DEDUCED: log entry 39. -/
def atomicLine (s : State) (k u : Nat) (d : StrD) (r : StrRun) : State × StrRun × StrStop :=
  let target : StrStop := .fault .atomicTarget ((bits d.dst 47 0 + dstOff d r) % 2^48)
  match strLoc s k u d.src (srcOff d r) false with
  | (s, .error e) => (s, r, e)
  | (s, .ok ls) =>
    match strLoc s k u d.dst (dstOff d r) true with
    | (s, .error (.refused true)) => (s, r, target)
    | (s, .error e) => (s, r, e)
    | (s, .ok ld) =>
      let fmt := atomicFmt d.ty
      let es := lineElems fmt r.off
      let (s, b, p) := readLoc s ls
      let (s, b0, p0, a0) := if decide (fmt = 3) && decide (r.off ≠ 0) then lineBefore s k u d r
        else (s, List.replicate 64 0, false, none)
      let src := fun j => if j < r.off then b0.getD (j + 64 - r.off) 0 else b.getD (j - r.off) 0
      let bad := fun (e : Nat × Nat × Nat) => (decide (e.2.1 + e.2.2 > r.off) && p) || (decide (e.2.1 < r.off) && p0)
      let marks := ((es.filter bad).map elemLines).flatten.eraseDups
      let next := fun (r : StrRun) => advance d { r with bytes := r.bytes + 64 }
      match ld with
      | .here a =>
        if !isCache a then (s, r, target)
        else
          let at_ := fun j => if j < r.off then a0.getD (a - 64) + (j + 64 - r.off) else a + (j - r.off)
          let s := es.foldl (fun s e => combineAt d.op d.ty e.1 at_ src s) s
          let s := marks.foldl (fun s l => s.setPoison (at_ (64 * l) / 64) true) s
          (s, next (notePoison r (p || (p0 && !marks.isEmpty)) (marks.map fun l => (dstOff d r - r.off) / 64 + l)), .moved)
      | .peer g =>
        if !isCache (g % 2^44) then (s, r, target)
        else (s.send (.peerAtomic g d.op d.ty b p), next (notePoison r p (if p then [dstLine d r] else [])), .moved)
      | .refused => (s, r, .refused false)

/-! ### A run -/

/-- Lines moved one after the other until the run ends or stands. -/
def strLines : Nat → State → Nat → Nat → StrRun → State × StrRun × StrStop
  | 0, s, _, _, r => (s, r, .moved)
  | n + 1, s, k, u, r =>
    let d := strD r.desc
    if finished d r then (s, r, .moved)
    else
      let x := match d.opcode with
        | 1 => copyLine s k u d r
        | 2 => ringLine s k u d r
        | 3 => egressLine s k u d r
        | _ => atomicLine s k u d r
      match x with
      | (s, r, .moved) => strLines n s k u r
      | (s, r, e) => (s, r, e)

/-- R161: the resume token of a run. -/
def tokenOf (r : StrRun) : List Byte :=
  r.desc.take 52 ++ leBytes 4 (r.i + 2^31) ++ leBytes 4 r.j ++ leBytes 4 r.off

def tokenAddr (s : State) (k u slot : Nat) : Nat := 256 * s.fld .strTokenBase k [u] 22 8 + 64 * slot

/-- R160 to R162: a run meets a translation fault: the token, the report, and what ends it at once.
DEDUCED: log entry 40. -/
def strFault (s : State) (k u slot : Nat) (r : StrRun) (x : XCause) (va : Nat) : State :=
  let c := k / 8
  let s := s.incReg .xltFault c
  let s := s.write (scratchAddr k (tokenAddr s k u slot)) (tokenOf r)
  let s := s.modCluster c fun y => { y with faults := y.faults ++ [⟨k, u, slot, strCtx s k u, va, x.code⟩] }
  let keep := fun (s : State) =>
    s.modStr k u fun y => { y with active := modAt (fun _ => some { r with halted := some x.code, faultAt := s.pst.up,
                                                                           faultVa := va }) slot y.active }
  match x with
  | .notValid => if s.fld .xltCtrl c [] 0 0 = 0 then strEnd s k u slot r .faultHalt 1 else keep s
  | .tablePoison => keep s
  | .atomicTarget => strEnd s k u slot r .outOfRange 6
  | _ => strEnd s k u slot r .faultHalt x.code

/-- The lines that a run has yet to move, and one more. -/
def strFuel (d : StrD) : Nat := d.n1 * d.n2 * (d.rowLen / 64) + 1

/-- The lines that a run may move when its unit starts it, goes on with it or resumes it: a multicast run moves rows
only at the drill's turns (R167). -/
def runFuel (d : StrD) : Nat := if d.mcast then 0 else strFuel d

/-- A run in an active slot goes on as far as it can. -/
def strGo (s : State) (k u slot fuel : Nat) (r : StrRun) : State :=
  let before := r.bytes
  let (s, r, e) := strLines fuel s k u r
  let s := if r.bytes = before then s else s.inc48 .strBytesLo .strBytesHi k [u] (r.bytes - before)
  let keep := fun (s : State) => s.modStr k u fun y => { y with active := modAt (fun _ => some r) slot y.active }
  match e with
  | .waits => keep s
  | .refused _ => strEnd s k u slot r .outOfRange 2
  | .fault x va => strFault s k u slot r x va
  | .moved =>
    if finished (strD r.desc) r then
      let x := strResult s k r
      strEnd s k u slot r x.1 x.2
    else keep s

/-! ### Checks at the head (R154) -/

def localEnd (base last : Nat) : Bool := isLocal base && decide (bits base 22 0 + last > 2^23)

def ringBad (s : State) (d : StrD) (m u : Nat) : Bool :=
  decide (ringRows s m u = 0) || decide (d.rowLen > ringRowBytes s m u)

/-- The status and detail of the first step that fails; `held` is set for a re-arm, which needs no new slot.
DEDUCED: log entry 41. -/
def strCheck (s : State) (k u : Nat) (d : StrD) (held : Bool) : Option (Status × Nat) :=
  let set := if d.mcast then maskCores s (k / 8) d.mcastIdx else [k]
  let out := fun m => s.coreFallow m || !s.coreInJob m
  if d.rsvd then some (.badDescriptor, 1)
  else if d.opcode = 2 ∧ set.any (fun m => ringBad s d m u) then some (.badDescriptor, 2)
  else if d.rowLen = 0 ∨ d.n1 = 0 ∨ d.n2 = 0 ∨ set = [] then some (.zero, 0)
  else if localEnd d.src ((d.n1 - 1) * d.s1 + (d.n2 - 1) * d.s2 + d.rowLen) && d.opcode != 3
      || localEnd d.dst ((d.n1 * d.n2 - 1) * d.d1 + d.rowLen) && d.opcode != 2
      || (d.mcast && set.any out)
      || decide (d.resI ≥ d.n1) || decide (d.resJ ≥ d.n2) || decide (d.resOff ≥ d.rowLen) then some (.outOfRange, 1)
  else if d.persistent && !held && (s.str k u).pers.all Option.isSome then some (.noResource, 0)
  else if d.digestEn && bit (SMap.get {} (s.cluster (k / 8)).digests d.digest).status 0 then some (.badDescriptor, 4)
  else none

/-! ### Starting (R155, R166, R167, R296) -/

def onDrill (d : StrD) : Bool := d.mcast || d.digestEn

/-- The runs of a cluster's drill. -/
def drillRuns (s : State) (c : Nat) : List StrRun :=
  ((List.range 8).map fun i =>
    ((s.core (8 * c + i)).str.map fun x => (x.active.filterMap id).filter fun r => onDrill (strD r.desc)).flatten).flatten

/-- R296: a descriptor pushed earlier to a unit of the cluster names the digest slot and still waits in its queue. -/
def digestQueued (s : State) (c slot issue : Nat) : Bool :=
  (List.range 8).any fun i => (s.core (8 * c + i)).str.any fun x => x.queue.any fun q =>
    (strD q.desc).digestEn && (strD q.desc).digest == slot && decide (q.issue < issue)

/-- May a descriptor, pushed or re-armed at `issue`, start now. -/
def strMayStart (s : State) (k u : Nat) (d : StrD) (issue : Nat) : Bool :=
  let x := s.str k u
  let runs := x.active.filterMap id
  let drill := drillRuns s (k / 8)
  s.fld .strCtrl k [u] 0 0 == 1 && !s.cplWaits (.str k u) && decide (runs.length < 4)
    && !(runs.any fun r => (strD r.desc).ordered) && (!d.ordered || runs.isEmpty)
    && (!onDrill d || decide (drill.length < 8))
    && !(d.digestEn && (digestQueued s (k / 8) d.digest issue
      || drill.any fun r => (strD r.desc).digestEn && (strD r.desc).digest == d.digest))

def freeSlot (x : StrUnit) : Nat := x.active.findIdx (·.isNone)

/-- A descriptor that has passed its checks runs in a free active slot. The rows of a multicast run move in the drill's
turns (R167). -/
def strBegin (s : State) (k u : Nat) (desc : List Byte) (seq : Word) (pers : Option Nat) : State :=
  let d := strD desc
  let slot := freeSlot (s.str k u)
  let set := if d.mcast then maskCores s (k / 8) d.mcastIdx else []
  let r : StrRun := ⟨desc, seq, pers, d.resI, d.resJ, d.resOff, 0, 0, 0, [], false, false, set, none, 0, 0, 0, false, false,
    s.issue⟩
  let s := { s with issue := s.issue + 1 }.modStr k u fun x => { x with active := modAt (fun _ => some r) slot x.active }
  strGo s k u slot (runFuel d) r

/-- The head of a unit's queue, taken. -/
def strHead (s : State) (k u : Nat) (i : TileIns) : State :=
  let d := strD i.desc
  match strCheck s k u d false with
  | some (st, det) => strStatus s k u i.desc i.seq st det
  | none =>
    if d.persistent then
      let p := (s.str k u).pers.findIdx (·.isNone)
      let s := s.modStr k u fun x => { x with pers := modAt (fun _ => some ⟨i.desc, i.seq, true, none⟩) p x.pers }
      strBegin s k u i.desc i.seq (some p)
    else strBegin s k u i.desc i.seq none

/-! ### Re-arms (R164, R165) -/

/-- The descriptor with a base record's bases and no resume position. -/
def rearmed (desc base : List Byte) : List Byte :=
  desc.take 16 ++ base.take 16 ++ (desc.drop 32).take 20 ++ List.replicate 12 0

/-- A re-arm acts on an idle slot: it retires it, or re-validates and runs. -/
def rearmNow (s : State) (k u i : Nat) (e : PersSlot) (base : List Byte) : State :=
  if fieldAt base 16 4 % 2 = 1 then s.modStr k u fun x => { x with pers := modAt (fun _ => none) i x.pers }
  else
    let desc := rearmed e.desc base
    let s := s.modStr k u fun x =>
      { x with pers := modAt (fun _ => some { e with desc := desc, rearm := none, busy := true }) i x.pers }
    match strCheck s k u (strD desc) true with
    | some (st, det) => persIdle (strStatus s k u desc e.seq st det) k u (some i)
    | none => strBegin s k u desc e.seq (some i)

/-- A re-arm may act: its slot is idle, and a run may start (a retirement needs no start). -/
def rearmReady (s : State) (k u : Nat) (e : PersSlot) (base : List Byte) : Bool :=
  !e.busy && (fieldAt base 16 4 % 2 == 1 || strMayStart s k u (strD (rearmed e.desc base)) s.issue)

/-- The REG_ACCESS record of an ignored re-arm (R532): the base record's address in DATA. -/
def rearmIgnored (s : State) (k : Nat) (addr : DWord) (seq : DWord) : State :=
  s.record 0x0001 4 k (leBytes 8 addr.toNat ++ leBytes 1 32 ++ leBytes 4 seq.toNat)

/-- A hart that waits to re-arm a slot: its re-arm becomes the held one, or, the slot having been retired, names no held
descriptor; either way it goes on (R165). -/
def rearmWaiter (k u i : Nat) (s : State) (j : Nat) : State :=
  let h := 4 * k + j
  match (s.hart h).hold with
  | .rearm u' i' rd base addr seq =>
    if u' = u ∧ i' = i then
      match (s.str k u).pers.getD i none with
      | none => hartGo (rearmIgnored s k addr seq) h rd 0
      | some e =>
        if e.rearm.isSome then s
        else hartGo (s.modStr k u fun x =>
          { x with pers := modAt (Option.map fun e => { e with rearm := some base }) i x.pers }) h rd 0
    else s
  | _ => s

/-- Held re-arms of idle slots are applied. -/
def rearmHeld (k u : Nat) (s : State) (i : Nat) : State :=
  match (s.str k u).pers.getD i none with
  | some e =>
    match e.rearm with
    | some base =>
      if rearmReady s k u e base then
        (List.range 4).foldl (rearmWaiter k u i) (rearmNow s k u i { e with rearm := none } base)
      else s
    | none => s
  | none => s

/-- After runs have ended: held re-arms, as long as any applies. -/
def strAfter : Nat → State → Nat → Nat → State
  | 0, s, _, _ => s
  | n + 1, s, k, u => strAfter n ((List.range 4).foldl (rearmHeld k u) s) k u

/-! ### The opcode commands -/

/-- A slot put into a list in the order of the runs' starts. -/
def insertSlot (x : Nat × Nat) : List (Nat × Nat) → List (Nat × Nat)
  | [] => [x]
  | y :: t => if x.1 < y.1 then x :: y :: t else y :: insertSlot x t

/-- The active slots whose runs carry an opcode, are not halted and are not the drill's to move, oldest start first. -/
def slotsOf (s : State) (k u o : Nat) : List Nat :=
  (((List.range 4).filterMap fun i =>
    match (s.str k u).active.getD i none with
    | some r => if (strD r.desc).opcode == o && r.halted.isNone && !(strD r.desc).mcast then some (r.born, i) else none
    | none => none).foldl (fun l x => insertSlot x l) []).map Prod.snd

def strContinue (k u : Nat) (s : State) (slot : Nat) : State :=
  match (s.str k u).active.getD slot none with
  | some r => if r.halted.isSome then s else strGo s k u slot (runFuel (strD r.desc)) r
  | none => s

/-- A unit goes on with its descriptors of an opcode and takes its queue's head when it carries that opcode, or none
that R152 defines. DEDUCED: log entry 11. -/
def strCmd (s : State) (k u o : Nat) : State :=
  if s.coreFallow k then s
  else
    let s := (slotsOf s k u o).foldl (strContinue k u) s
    let s := match (s.str k u).queue with
      | [] => s
      | i :: rest =>
        let d := strD i.desc
        if (d.opcode = o ∨ d.opcode = 0 ∨ d.opcode > 4) ∧ strMayStart s k u d i.issue = true then
          strHead (strServe 16 (s.modStr k u fun x => { x with queue := rest }) k u) k u i
        else s
    strAfter 2 s k u

/-- R153: COPY. -/
def execCopy (k : CoreIx) (u : UnitIx) (s : State) : Host.Outcome State Fault Refusal := powered s (strCmd s k u 1)
/-- R153: RING. -/
def execRing (k : CoreIx) (u : UnitIx) (s : State) : Host.Outcome State Fault Refusal := powered s (strCmd s k u 2)
/-- R153: EGRESS. -/
def execEgress (k : CoreIx) (u : UnitIx) (s : State) : Host.Outcome State Fault Refusal := powered s (strCmd s k u 3)
/-- R195, R196: ATOMIC. -/
def execAtomic (k : CoreIx) (u : UnitIx) (s : State) : Host.Outcome State Fault Refusal := powered s (strCmd s k u 4)

/-- The drill's turn for one run: the next ring row, if every member's ring has room. -/
def drillRow (c : Nat) (s : State) (p : Nat × Nat × Nat) : State :=
  let k := 8 * c + p.1
  let u := p.2.1
  match (s.str k u).active.getD p.2.2 none with
  | some r =>
    let d := strD r.desc
    if d.mcast && r.halted.isNone && ringsReady s k u d r then
      strAfter 1 (strGo s k u p.2.2 ((d.rowLen - r.off) / 64) r) k u
    else s
  | none => s

/-- Every core, unit and active slot of a cluster. -/
def clusterSlots : List (Nat × Nat × Nat) :=
  ((List.range 8).map fun i => ((List.range 4).map fun u => (List.range 4).map fun a => (i, u, a)).flatten).flatten

/-- R167: the drill writes the next ring row of each multicast run whose members all have room. -/
def execDrillRingRowWrite (c : ClusterIx) (s : State) : Host.Outcome State Fault Refusal :=
  powered s (clusterSlots.foldl (drillRow c) s)

/-! ### Faults and resumption (R161 to R163) -/

/-- A halted run goes on from its position. -/
def strUnhalt (s : State) (k u slot : Nat) (byFirmware : Bool) : State :=
  match (s.str k u).active.getD slot none with
  | some r =>
    if r.halted.isNone then s
    else
      let r := { r with halted := none, faults := r.faults + byFirmware.toNat }
      let s := s.modStr k u fun y => { y with active := modAt (fun _ => some r) slot y.active }
      strAfter 2 (strGo s k u slot (runFuel (strD r.desc)) r) k u
  | none => s

/-- The slot whose token stands at an offset of the scratchpad, if it is halted. -/
def haltedAt (s : State) (k u off : Nat) : Option Nat :=
  (List.range 4).find? fun i =>
    match (s.str k u).active.getD i none with
    | some r => r.halted.isSome && decide (tokenAddr s k u i = off)
    | none => false

/-- A halted run ends. -/
def strHaltedEnd (s : State) (k u slot : Nat) (st : Status) (detail : Nat) : State :=
  match (s.str k u).active.getD slot none with
  | some r => if r.halted.isNone then s else strAfter 2 (strEnd s k u slot r st detail) k u
  | none => s

/-- The address of the level-4 entry that maps a page, when the levels above it lead there. -/
def leafAddr (s : State) (c ctx va : Nat) : Option (Nat × Nat) :=
  match (walk s c ctx va).2 with
  | .leaf _ _ => none
  | .fail .notValid 4 a => some (a, leNat (s.bytes a 8))
  | .fail _ _ _ => none

/-- R300: the tier that an entry with V = 0 names. -/
def tierOf (e : Nat) : Nat := bits e 63 60

/-- The address of the level-`l` entry that a walk of an address reaches, when the levels above lead there. -/
def entryAt (s : State) (c ctx va l : Nat) : Option Nat :=
  let t := (List.range (l - 1)).foldl (fun (t : Option Nat) i => t.bind fun t =>
    let a := t + 8 * (va / 2^levelShift (i + 1) % levelEntries (i + 1))
    if a ≥ s.dramCap then none
    else
      let e := leNat (s.bytes a 8)
      if bit e 0 && !bit e 1 then some (bits e 55 12 * 4096) else none) (some (xltRoot s c ctx))
  t.map fun t => t + 8 * (va / 2^levelShift l % levelEntries l)

/-- R211: where the second copy of a table's byte lies, on another stack. -/
def tableCopy (s : State) (a : Nat) : Option Nat :=
  (s.tiering.copies.findSome? fun p =>
    if p.1 = a / 4096 then some p.2 else if p.2 = a / 4096 then some p.1 else none).map fun q => 4096 * q + a % 4096

/-- A table entry written, in both copies (R211). -/
def writeEntry (s : State) (a e : Nat) : State :=
  let s := s.write a (leBytes 8 e)
  match tableCopy s a with
  | some b => s.write b (leBytes 8 e)
  | none => s

/-- What points at the table of a level points at another page: the entry above it, or the context's root. -/
def pointTable (s : State) (c ctx va l page : Nat) : State :=
  if l = 1 then
    (s.setReg .xltRootLo c [ctx] (BitVec.ofNat 32 (4096 * page))).setReg .xltRootHi c [ctx]
      (BitVec.ofNat 32 (4096 * page / 2^32))
  else match entryAt s c ctx va (l - 1) with
    | some a =>
      let e := leNat (s.bytes a 8)
      writeEntry s a (e - bits e 55 12 * 4096 + 4096 * page)
    | none => s

/-- R162, R211: a poisoned table line is rewritten from the table's other copy; where its channel takes no write, what
points at the table points at the other copy instead. There is no clean copy where the plan gave none, or where that
line reads poisoned too. DEDUCED: log entry 119. -/
def rewriteTable (s : State) (c ctx va l a : Nat) : State × Bool :=
  match tableCopy s a with
  | none => (s, false)
  | some b =>
    let s := s.noteRead (b / 64 * 64)
    if s.linePoison b then (s, false)
    else if s.dramShut a then (pointTable s c ctx va l (b / 4096), true)
    else (s.writeLine (a / 64 * 64) (s.bytes (b / 64 * 64) 64) false, true)

/-! ### Demand paging (R300 to R302) -/

/-- R209 step 1, R214: a 64 KiB page that has been retired, or has a granule on a fenced channel (R219). -/
def pageRetired (s : State) (page : Nat) : Bool :=
  (s.dram.retired.any fun e => decide (e.1 = page))
  || (List.range 32).any fun i => match s.dramDecode (page * 65536 + 2048 * i) with
    | some (c, _) => (s.chan c).fenced
    | none => false

/-- Every cached translation of a page, removed. -/
def dropPage (s : State) (c ctx page : Nat) : State :=
  s.modCluster c fun x => { x with tlb := x.tlb.filter fun e => !(e.ctx == ctx && e.pages == 1 && e.page == page) }

/-- The runs that go on under a context of a cluster: each by its core, its unit and its start. -/
def runsUnder (s : State) (c ctx : Nat) : List (Nat × Nat × Nat) :=
  ((List.range 8).map fun i => ((List.range 4).map fun u =>
    if strCtx s (8 * c + i) u = ctx then
      ((s.str (8 * c + i) u).active.filterMap id).filterMap fun r =>
        if r.halted.isNone then some (8 * c + i, u, r.born) else none
    else []).flatten).flatten

/-- Has a run ended or halted. -/
def runOver (s : State) (x : Nat × Nat × Nat) : Bool :=
  !((s.str x.1 x.2.1).active.filterMap id).any fun r => decide (r.born = x.2.2) && r.halted.isNone

/-- R301 step 1: a free frame that is not retired, or that of the least recently filled page, with the runs that must be
over before it is reused. -/
def takeFrame (s : State) : Option (State × Nat × List (Nat × Nat × Nat)) :=
  match s.tiering.frames.find? fun f => !pageRetired s f with
  | some f => some ({ s with tiering := { s.tiering with frames := s.tiering.frames.erase f } }, f, [])
  | none =>
    match s.tiering.filled.find? fun e => !pageRetired s e.frame with
    | none => none
    | some e =>
      let s := { s with tiering := { s.tiering with filled := s.tiering.filled.erase e } }.incReg .supWsEvict
      let va := e.page * 65536
      let s := match (walk s e.cluster e.ctx va).2, entryAt s e.cluster e.ctx va 4 with
        | .leaf _ 4, some a => writeEntry s a e.tier.toNat
        | _, _ => s
      some (dropPage s e.cluster e.ctx e.page, e.frame, runsUnder s e.cluster e.ctx)

/-- R300: a tier entry's TIER, UNIT and LOCATOR. -/
def tierUnit (e : Nat) : Nat := bits e 59 56
def tierLocator (e : Nat) : Nat := bits e 55 12

/-- R301 steps 1 and 2: a frame is taken, and, once no run under an evicted translation goes on, the tier is read. -/
def askFill (s : State) (f : Fill) (e : Nat) : State × Fill :=
  let (s, f) := match f.frame with
    | some _ => (s, f)
    | none =>
      match takeFrame s with
      | some (s, p, after) => (s, { f with frame := some p, after })
      | none => (s, f)
  if f.asked || f.frame.isNone || !f.after.all (runOver s) then (s, f)
  else (s.send (.tierRead (tierOf e) (tierUnit e) (tierLocator e)), { f with asked := true })

/-- A halted run's fault acted on. DEDUCED: log entry 40. -/
def faultAct (s : State) (c : Nat) (f : FaultRep) : State :=
  match (walk s c f.ctx f.va).2 with
  | .leaf _ _ => strUnhalt s f.core f.unit f.slot true
  | .fail .tablePoison l a =>
    match rewriteTable s c f.ctx f.va l a with
    | (s, true) => strUnhalt s f.core f.unit f.slot true
    | (s, false) => strHaltedEnd s f.core f.unit f.slot .faultHalt 7
  | .fail .notValid 4 a =>
    let e := leNat (s.bytes a 8)
    let t := tierOf e
    if t = 0 ∨ t > 3 then strHaltedEnd s f.core f.unit f.slot .faultHalt 5
    else if (s.cluster c).fills.any fun x => x.ctx == f.ctx && decide (x.va / 65536 = f.va / 65536) then s
    else
      let (s, fill) := askFill s { ctx := f.ctx, va := f.va / 65536 * 65536 } e
      s.modCluster c fun x => { x with fills := x.fills ++ [fill] }
  | .fail .notValid _ _ => strHaltedEnd s f.core f.unit f.slot .faultHalt 5
  | .fail x _ _ => strHaltedEnd s f.core f.unit f.slot .faultHalt x.code

/-- R162: resident firmware takes the oldest fault of a translation unit. -/
def execTranslationFault (c : ClusterIx) (s : State) : Host.Outcome State Fault Refusal :=
  powered s <|
    match (s.cluster c).faults with
    | [] => s
    | f :: t =>
      let s := s.modCluster c fun x => { x with faults := t }
      match (s.str f.core f.unit).active.getD f.slot none with
      | some r => if r.halted = some f.cause ∧ r.faultVa = f.va then faultAct s c f else s
      | none => s

/-- The halted runs of a cluster that wait for a page. -/
def pageWaiters (s : State) (c ctx page : Nat) : List (Nat × Nat × Nat) :=
  clusterSlots.filter fun p =>
    match (s.str (8 * c + p.1) p.2.1).active.getD p.2.2 none with
    | some r => r.halted == some 1 && decide (r.faultVa / 65536 = page) && strCtx s (8 * c + p.1) p.2.1 == ctx
    | none => false

/-- The first attempt whose page carries the fingerprint, and how many before it differed. -/
def firstGood (fp : DWord) : List Bulk → Nat → Option (List Byte) × Nat
  | [], n => (none, n)
  | none :: t, n => firstGood fp t n
  | some b :: t, n => if b.length = 65536 ∧ fingerprint b = fp then (some b, n) else firstGood fp t (n + 1)

/-- R301 steps 3 and 4, R302: a page read from its tier is checked and installed in the frame taken for it, and its
waiters resume. The attempts are in the order of R302: the source, the source once more, and the next sources of R305.
While no frame can be had, or its reads may still go on, the request stays; the report of a read not yet issued issues
it. DEDUCED: log entry 44. -/
def pageFill (s : State) (c ctx va : Nat) (attempts : List Bulk) : State :=
  let page := va / 65536
  let w := pageWaiters s c ctx page
  let is := fun (x : Fill) => x.ctx == ctx && decide (x.va / 65536 = page)
  match (s.cluster c).fills.find? is with
  | none => s
  | some f =>
    let drop := fun (s : State) => s.modCluster c fun x => { x with fills := x.fills.filter fun x => !is x }
    let keep := fun (s : State) (f : Fill) => s.modCluster c fun x =>
      { x with fills := x.fills.map fun x => if is x then f else x }
    let back := fun (s : State) => match f.frame with
      | some p => { s with tiering := { s.tiering with frames := s.tiering.frames ++ [p] } }
      | none => s
    let resume := fun (s : State) => w.foldl (fun s p => strUnhalt s (8 * c + p.1) p.2.1 p.2.2 true) s
    let fail := fun (s : State) => w.foldl (fun s p => strHaltedEnd s (8 * c + p.1) p.2.1 p.2.2 .faultHalt 5) (back (drop s))
    match leafAddr s c ctx va with
    | none => resume (back (drop s))
    | some (a, e) =>
      match f.asked, f.frame with
      | true, some p =>
        (match (s.tiering.fps.find? fun x => x.1 == BitVec.ofNat 64 e) with
        | none => fail (s.recordInternal 6 c)
        | some (_, fp) =>
          match firstGood fp attempts 0 with
          | (none, n) => fail (s.incReg .supWsMismatch 0 [] n)
          | (some b, n) =>
            let s := if n = 0 then s else s.incReg .supWsMismatch 0 [] n
            let s := drop (s.write (p * 65536) b)
            let s := writeEntry s a (s.ownId.getD 0 * 2^44 + p * 65536 + 3)
            let s := { s with tiering := { s.tiering with
              filled := s.tiering.filled ++ [FilledPage.mk c ctx page (BitVec.ofNat 64 e) p] } }.incReg .supWsFill
            resume (dropPage s c ctx page))
      | _, _ =>
        let (s, f) := askFill s f e
        keep s f

def execPageFillDone (c : ClusterIx) (ctx : Fin 8) (va : BitVec 48) (attempts : List Bulk) (s : State) :
    Host.Outcome State Fault Refusal := powered s (pageFill s c ctx va.toNat attempts)

/-- R162: 100 ms have passed since the fault. -/
def execTierTimeout (k : CoreIx) (u : UnitIx) (slot : UnitIx) (s : State) : Host.Outcome State Fault Refusal :=
  powered s <|
    match (s.str k u).active.getD slot none with
    | some r =>
      if r.halted.isSome ∧ s.pst.up ≥ r.faultAt + 100000000 then
        strHaltedEnd s k u slot .faultHalt (if r.halted = some 7 then 7 else 4)
      else s
    | none => s

/-! ### Control (R163, R171) -/

/-- ABORT_HALTED: halted descriptors end with CANCELLED, and a failure mark of the ring is discarded. -/
def strAbort (s : State) (k u : Nat) : State :=
  let s := (List.range 4).foldl (fun s i =>
    match (s.str k u).active.getD i none with
    | some r => if r.halted.isSome then strEnd s k u i r .cancelled 0 else s
    | none => s) s
  strAfter 2 (s.modStr k u fun x => { x with ring := x.ring.filter isRow }) k u

def execStrAbortHalted (k : CoreIx) (u : UnitIx) (s : State) : Host.Outcome State Fault Refusal :=
  powered s (strAbort s k u)

/-- FLUSH: every queued descriptor ends with CANCELLED. -/
def strFlush (s : State) (k u : Nat) : State :=
  let q := (s.str k u).queue
  let s := s.modStr k u fun x => { x with queue := [] }
  strServe 16 (q.foldl (fun s i => strStatus s k u i.desc i.seq .cancelled 0) s) k u

def execStrFlush (k : CoreIx) (u : UnitIx) (s : State) : Host.Outcome State Fault Refusal := powered s (strFlush s k u)

/-- ENABLE takes effect at once; held re-arms may start again. -/
def strEnable (s : State) (k u : Nat) (en : Bool) : State :=
  strAfter 2 (s.setFld .strCtrl k [u] 0 0 en.toNat) k u

def execStrEnable (k : CoreIx) (u : UnitIx) (en : Bool) (s : State) : Host.Outcome State Fault Refusal :=
  powered s (strEnable s k u en)

/-- A write to STR_RESUME. -/
def strResumeWrite (s : State) (k u : Nat) (v : Word) : State :=
  if v.toNat % 64 = 0 then
    match haltedAt s k u (bits v.toNat 22 0) with
    | some i => strUnhalt s k u i true
    | none => s.recordReg .strResume k [u] v.toNat
  else s.recordReg .strResume k [u] v.toNat

def execStrResumeReg (k : CoreIx) (u : UnitIx) (val : Word) (s : State) : Host.Outcome State Fault Refusal :=
  powered s (strResumeWrite s k u val)

/-! ### Invalidation, digest slots and the cache split -/

/-- R159: the named translations are removed; INVAL_BUSY reads 1 until the invalidation has finished. -/
def xltInval (s : State) (c : Nat) (all : Bool) (ctx : Nat) : State :=
  s.modCluster c fun x => { x with tlb := if all then [] else x.tlb.filter (·.ctx ≠ ctx), invalBusy := true }

def execXltInvalAll (c : ClusterIx) (s : State) : Host.Outcome State Fault Refusal := powered s (xltInval s c true 0)
def execXltInvalCtx (c : ClusterIx) (ctx : Fin 8) (s : State) : Host.Outcome State Fault Refusal :=
  powered s (xltInval s c false ctx)
def execXltInvalDone (c : ClusterIx) (s : State) : Host.Outcome State Fault Refusal :=
  powered s (s.modCluster c fun x => { x with invalBusy := false })

/-- R306: ARM resets the hash, BYTES and STATUS. -/
def digestArm (s : State) (c n : Nat) : State :=
  s.modCluster c fun x => { x with digests := SMap.set x.digests n {} }

def execDigestArm (c : ClusterIx) (n : Fin 64) (s : State) : Host.Outcome State Fault Refusal :=
  powered s (digestArm s c n)

/-- The lines of an address range without their poison marks. -/
def clearLines (s : State) (lo hi : Nat) : State :=
  { s with poison := s.poison.filter fun l => !(decide (lo ≤ l * 64) && decide (l * 64 < hi)) }

/-- R151, R530: CLU_SC_CFG takes effect while no job owns the cluster; then the addressable part's contents are
undefined. A write to an owned cluster is ignored, and recorded where it would have changed the field, as RWI requires. -/
def scCfgWrite (s : State) (c : Nat) (v : Word) : State :=
  if s.jobOwns c then
    (if s.fld .cluScCfg c [] 4 0 = v.toNat % 32 then s else s.recordReg .cluScCfg c [] v.toNat)
  else
    let lo := 0x81000000000 + c * 2^26
    let s := (s.setFld .cluScCfg c [] 4 0 (v.toNat % 32)).modCluster c fun x => { x with scGen := s.freeCtr + 1 }
    clearLines { s with freeCtr := s.freeCtr + 1 } lo (lo + 2^26)

def execScCfgWrite (c : ClusterIx) (val : Word) (s : State) : Host.Outcome State Fault Refusal :=
  powered s (scCfgWrite s c val)

end Sys2Proof.Machine
end

