-- ==== Sys2Proof/Machine/Fp32.lean ====
section
/-! DEFINITION. FP32 operations, each rounded once to nearest-even (R110), the correctly rounded functions of R119,
and the tree of R84. -/

namespace Sys2Proof.Machine

/-- The flags of VXE_FLAGS (R137): INVALID 0, DIVZERO 1, OVERFLOW 2, DOMAIN 3, SAT 4. -/
abbrev VFlags := BitVec 5
def vInvalid : VFlags := 1#5
def vDivzero : VFlags := 2#5
def vOverflow : VFlags := 4#5
def vDomain : VFlags := 8#5
def vSat : VFlags := 16#5

/-- An FP32 result and the flags it raises. -/
abbrev FRes := FVal × VFlags

namespace F

/-- An exact value rounded to FP32; OVERFLOW when a finite one becomes infinite. -/
def round (v : FVal) : FRes :=
  match v with
  | .fin s m e => let r := fp32.rne s m e; (r, if r.isInf then vOverflow else 0)
  | v => (v, 0)

/-- INVALID when a NaN came from operands that are no NaN. -/
def chk (ops : List FVal) (r : FRes) : FRes :=
  (r.1, r.2 ||| (if r.1.isNan && !(ops.any FVal.isNan) then vInvalid else 0))

def add (a b : FVal) : FRes := chk [a, b] (round (FVal.add a b))
def sub (a b : FVal) : FRes := chk [a, b] (round (FVal.add a b.neg))
def mul (a b : FVal) : FRes := chk [a, b] (round (FVal.mul a b))

/-- a · b + d with one rounding. -/
def fma (a b d : FVal) : FRes := chk [a, b, d] (round (FVal.add (FVal.mul a b) d))

/-- The smaller of two, −0 below +0; NaN if either is NaN. -/
def min (a b : FVal) : FVal :=
  if a.isNan || b.isNan then .nan
  else if a.isZero && b.isZero then (if a.sign then a else b)
  else if a.le b then a else b

/-- The larger of two, −0 below +0; NaN if either is NaN. -/
def max (a b : FVal) : FVal :=
  if a.isNan || b.isNan then .nan
  else if a.isZero && b.isZero then (if a.sign then b else a)
  else if a.le b then b else a

/-- ⌊√n⌋ by bits from `k` down. -/
def isqrtBits (n : Nat) : Nat → Nat → Nat
  | 0, r => r
  | k + 1, r => isqrtBits n k (if (r + 2^k) * (r + 2^k) ≤ n then r + 2^k else r)

def isqrt (n : Nat) : Nat := isqrtBits n (Nat.log2 n / 2 + 1) 0

/-- a / b, correctly rounded. -/
def div (a b : FVal) : FRes :=
  match a, b with
  | .nan, _ => (.nan, 0)
  | _, .nan => (.nan, 0)
  | .inf _, .inf _ => (.nan, vInvalid)
  | .inf s, .fin t _ _ => (.inf (s != t), 0)
  | .fin s _ _, .inf t => (.fin (s != t) 0 fp32.emin, 0)
  | .fin s m e, .fin t n d =>
    if n = 0 then (if m = 0 then (.nan, vInvalid) else (.inf (s != t), vDivzero))
    else
      let k := 64 + Nat.log2 n
      let r := fp32.rne (s != t) (m * 2^k / n) (e - d - k) (m * 2^k % n != 0)
      (r, if r.isInf then vOverflow else 0)

/-- √a, correctly rounded; √−0 is −0. -/
def sqrt (a : FVal) : FRes :=
  match a with
  | .nan => (.nan, 0)
  | .inf s => if s then (.nan, vInvalid) else (.inf false, 0)
  | .fin s m e =>
    if m = 0 then (.fin s 0 e, 0)
    else if s then (.nan, vInvalid)
    else
      let (m, e) := if e % 2 = 0 then (m, e) else (2 * m, e - 1)
      let n := m * 2^64
      let r := isqrt n
      (fp32.rne false r (e / 2 - 32) (r * r != n), 0)

/-- 1/√a, correctly rounded (R119). -/
def rsqrt (a : FVal) : FRes :=
  match a with
  | .nan => (.nan, 0)
  | .inf s => if s then (.nan, vInvalid) else (.fin false 0 fp32.emin, 0)
  | .fin s m e =>
    if m = 0 then (.inf s, vDivzero)
    else if s then (.nan, vInvalid)
    else
      let (m, e) := if e % 2 = 0 then (m, e) else (2 * m, e - 1)
      let r := isqrt (2^128 / m)
      (fp32.rne false r (-(e / 2) - 64) (r * r * m != 2^128), 0)

/-- 1/a, correctly rounded (R119). -/
def rcp (a : FVal) : FRes := div (.fin false 1 0) a

/-- Lower and upper bounds of e^y · 2^p for y in [ylo, yhi] · 2^−p, y below 2^−7, by `n` Taylor terms. -/
def expSeries (p ylo yhi : Nat) : Nat → Nat → Nat → Nat → Nat → Nat → Nat × Nat
  | 0, _, _, thi, slo, shi => (slo, shi + 2 * thi + 2)
  | n + 1, i, tlo, thi, slo, shi =>
    let tlo := tlo * ylo / 2^p / i
    let thi := thi * yhi / 2^p / i + 2
    expSeries p ylo yhi n (i + 1) tlo thi (slo + tlo) (shi + thi)

/-- The bounds squared `n` times. -/
def expSquare (p : Nat) : Nat → Nat × Nat → Nat × Nat
  | 0, b => b
  | n + 1, b => expSquare p n (b.1 * b.1 / 2^p, b.2 * b.2 / 2^p + 1)

/-- Bounds of e^(m·2^e) · 2^p for m·2^e below 128. -/
def expBounds (p m : Nat) (e : Int) : Nat × Nat :=
  let (ylo, left) := floorAt m (e - 15) (-(p : Int))
  let yhi := if left then ylo + 1 else ylo
  expSquare p 15 (expSeries p ylo yhi (p / 8) 1 (2^p) (2^p) (2^p) (2^p))

/-- The common rounding of two bounds, at one of the working precisions. -/
def agree (lo hi : FVal) : Option FVal := if lo = hi then some lo else none

/-- e^(±m·2^e) at one working precision, where its bounds round alike. -/
def expAt (p : Nat) (s : Bool) (m : Nat) (e : Int) : FVal × FVal :=
  let (lo, hi) := expBounds p m e
  if s then (fp32.rne false (2^(2 * p) / hi) (-(p : Int)), fp32.rne false (2^(2 * p) / lo + 1) (-(p : Int)))
  else (fp32.rne false lo (-(p : Int)), fp32.rne false hi (-(p : Int)))

/-- The first working precision whose bounds agree (e^x is no tie for x ≠ 0). -/
def firstAgree (f : Nat → FVal × FVal) : List Nat → FVal
  | [] => (f 4096).1
  | p :: t => match agree (f p).1 (f p).2 with
    | some v => v
    | none => firstAgree f t

/-- e^a, correctly rounded (R119). -/
def exp (a : FVal) : FRes :=
  match a with
  | .nan => (.nan, 0)
  | .inf s => if s then (.fin false 0 fp32.emin, 0) else (.inf false, 0)
  | .fin s m e =>
    if m = 0 then (fp32.rne false 1 0, 0)
    else if (FVal.fin false 104 0).lt (.fin false m e) then
      (if s then (.fin false 0 fp32.emin, 0) else (.inf false, vOverflow))
    else
      let r := firstAgree (fun p => expAt p s m e) [320, 640, 1280]
      (r, if r.isInf then vOverflow else 0)

/-- Bounds of atanh(u) · 2^p for u in [ulo, uhi] · 2^−p, u at most 1/3, by `n` terms. -/
def atanhSeries (p : Nat) (ulo uhi : Nat) : Nat → Nat → Nat → Nat → Nat → Nat → Nat × Nat
  | 0, _, _, thi, slo, shi => (slo, shi + thi + 2)
  | n + 1, i, tlo, thi, slo, shi =>
    let tlo' := tlo * ulo / 2^p * ulo / 2^p
    let thi' := (thi * uhi / 2^p + 1) * uhi / 2^p + 1
    atanhSeries p ulo uhi n (i + 2) tlo' thi' (slo + tlo / i) (shi + thi / i + 1)

def atanhBounds (p n d : Nat) : Nat × Nat :=
  let lo := n * 2^p / d
  let hi := lo + 1
  atanhSeries p lo hi (p / 3 + 2) 1 lo hi 0 0

/-- Bounds of ln(m·2^e) · 2^p, as integers. -/
def lnBounds (p m : Nat) (e : Int) : Int × Int :=
  -- z = m / 2^j in [1, 2), halved when above 3/2
  let j := Nat.log2 m
  let j := if m * 2 > 3 * 2^j then j + 1 else j
  let k : Int := e + j
  let d := 2^j
  let neg := decide (m < d)
  let (lo, hi) := atanhBounds p (if neg then d - m else m - d) (m + d)
  let (l2, h2) := atanhBounds p 1 3
  let z : Int × Int := if neg then (-(2 * hi : Nat), -(2 * lo : Nat)) else ((2 * lo : Nat), (2 * hi : Nat))
  if k < 0 then (z.1 + k * (2 * h2 : Nat), z.2 + k * (2 * l2 : Nat))
  else (z.1 + k * (2 * l2 : Nat), z.2 + k * (2 * h2 : Nat))

def ofScaled (p : Nat) (v : Int) : FVal := fp32.rne (decide (v < 0)) v.natAbs (-(p : Int))

/-- ln a, correctly rounded (R119). -/
def ln (a : FVal) : FRes :=
  match a with
  | .nan => (.nan, 0)
  | .inf s => if s then (.nan, vInvalid) else (.inf false, 0)
  | .fin s m e =>
    if m = 0 then (.inf true, vDivzero)
    else if s then (.nan, vInvalid)
    else if FVal.eqv (.fin false m e) (.fin false 1 0) then (.fin false 0 fp32.emin, 0)
    else
      (firstAgree (fun p => let b := lnBounds p m e; (ofScaled p b.1, ofScaled p b.2)) [192, 384, 768], 0)

/-- One level of R84's tree with FP32 additions: neighbours added, lower index on the left. -/
def pairUp : List FVal → List FVal × VFlags
  | a :: b :: t =>
    let (r, f) := add a b
    let (l, g) := pairUp t
    (r :: l, f ||| g)
  | l => (l, 0)

/-- R84's tree over FP32 values; `n` bounds its levels. +0 for no leaf. -/
def treeLevels : Nat → List FVal → FRes
  | _, [] => (.fin false 0 fp32.emin, 0)
  | _, [v] => (v, 0)
  | 0, v :: _ => (v, 0)
  | n + 1, l =>
    let (l, f) := pairUp l
    let (r, g) := treeLevels n l
    (r, f ||| g)

/-- R84, R120: the ordered sum of FP32 values. -/
def treeSum (l : List FVal) : FRes := treeLevels (l.length + 1) l

/-- ⌊a⌋ of a value from 0 to 511 (R123). -/
def floorNat : FVal → Nat
  | .fin false m e => (floorAt m e 0).1
  | _ => 0

end F

end Sys2Proof.Machine
end

