-- ==== Sys2Proof/Machine/Vector.lean ====
section
/-! DEFINITION. The vector engine (R109 to R137): checks, masks, poison, the elementwise, per-row, softmax, table and
sampling operations, and its registers. -/

namespace Sys2Proof.Machine

/-- The operations that R118 lists. -/
def vecOpKnown (o : Nat) : Bool :=
  (decide (1 ≤ o) && decide (o ≤ 0x11)) || (decide (0x20 ≤ o) && decide (o ≤ 0x23))
    || (decide (0x30 ≤ o) && decide (o ≤ 0x33)) || o == 0x40

/-- Operations that take an operand b (R113). -/
def vecBinary (o : Nat) : Bool := [1, 2, 3, 4, 5, 6, 9, 0x0A].contains o
/-- Operations that take integer sources (R110). -/
def vecIntOp (o : Nat) : Bool := [1, 2, 3, 5, 6, 7, 8, 9].contains o
/-- Per-row reductions (R118). -/
def vecRed (o : Nat) : Bool := decide (0x20 ≤ o) && decide (o ≤ 0x23)
def vecSmax (o : Nat) : Bool := decide (0x30 ≤ o) && decide (o ≤ 0x33)
/-- Operations whose SRC_B is a parameter block or a list of state records. -/
def vecParamB (o : Nat) : Bool := [0x30, 0x32, 0x33, 0x40].contains o

/-- The number of rows. -/
def VecD.nRows (d : VecD) : Nat := if d.rows then d.len / d.rowLen else 1

/-- R115 step 1, DETAIL 0x01. -/
def vecBad (d : VecD) : Bool :=
  let o := d.opcode
  let bin := vecBinary o
  let immUsed := (bin && d.bmode == 3) || o == 0x23 || o == 0x31 || o == 0x32 || (o == 0x40 && bit d.aux 0)
  !vecOpKnown o || d.rsvd
  || (!d.rows && d.rowLen != 0) || (!d.maskEn && d.mask != 0) || (!immUsed && d.imm != 0)
  || (if bin then ((d.bmode == 1 || d.bmode == 2) && !d.rows) || (d.bmode == 3 && d.srcB != 0)
      else d.bmode != 0 || (!vecParamB o && d.srcB != 0))
  || (if o = 9 then decide (d.aux > 5) else if o = 0x10 then decide (d.aux > 15) else if o = 0x11 then decide (d.aux > 7)
      else if o = 0x40 then decide (d.aux > 1) else d.aux != 0)
  || ((vecRed o || vecSmax o) && !d.rows) || (o == 0x40 && d.rows)
  || (d.rows && d.rowLen != 0 && d.len % d.rowLen != 0) || (o == 0x11 && decide (d.len > 1))
  || d.srcA % 64 != 0 || d.srcB % 64 != 0 || d.dst % 64 != 0 || d.mask % 64 != 0
  || ((o == 0x31 || o == 0x32) && (decide (d.imm ≥ 2^23) || d.imm % 64 != 0))

/-- A format code that the vector engine reads or writes (R110). -/
def vecFmtOk (f : Nat) : Bool := decide (f ≤ 8) && f != 7

/-- R115 step 1, DETAIL 0x02. -/
def vecFmtBad (d : VecD) : Bool :=
  let o := d.opcode
  !vecFmtOk d.fmtA || !vecFmtOk d.fmtD || (isIntFmt d.fmtA && !vecIntOp o)
  || ((o == 4 || o == 0x31 || o == 0x32) && isIntFmt d.fmtD)
  || ((o == 9 || vecRed o || o == 0x40) && d.fmtD != 0)
  || (o == 0x11 && (d.fmtA != 0 || d.fmtD != 0))
  || (o == 0x40 && decide (d.fmtA > 2))

/-- The bytes of the b operand. -/
def vecBBytes (d : VecD) : Nat :=
  if vecBinary d.opcode then
    (match d.bmode with
      | 0 => rowBytes d.fmtA d.len
      | 1 => rowBytes d.fmtA d.nRows
      | 2 => rowBytes d.fmtA d.rowLen
      | _ => 0)
  else if d.opcode = 0x40 then 32 else if vecParamB d.opcode then 16 * d.nRows else 0

/-- The bytes of the destination. -/
def vecDBytes (d : VecD) : Nat :=
  let o := d.opcode
  if o = 0x11 then 0 else if o = 9 then (d.len + 7) / 8 else if o = 0x40 then 16
  else if vecRed o then 4 * d.nRows else rowBytes d.fmtD d.len

/-- R115 step 3. -/
def vecRange (d : VecD) : Bool :=
  let o := d.opcode
  decide (d.srcA + (if o = 0x11 then 2112 else rowBytes d.fmtA d.len) > 2^23)
  || decide (d.srcB + vecBBytes d > 2^23) || decide (d.dst + vecDBytes d > 2^23)
  || (d.maskEn && decide (d.mask + (d.len + 7) / 8 > 2^23))
  || ((o == 0x31 || o == 0x32) && decide (d.imm + 16 * d.nRows > 2^23))
  || (o == 0x40 && bit d.aux 0 && decide (d.imm > 4096))

/-- R130: the parameter block of SAMPLE is invalid. -/
def sampleParamBad (p : List Byte) : Bool :=
  let t := fp32.decode (fieldAt p 16 4)
  let pv := fp32.decode (fieldAt p 20 4)
  let fl := fieldAt p 24 4
  t.isNan || t.isInf || (!t.isZero && t.sign) || decide (fl > 1) || fieldAt p 28 4 != 0
  || (if fl = 1 then pv.isNan || pv.isZero || pv.sign || !pv.le (.fin false 1 0) else fieldAt p 20 4 != 0)

/-- R115 steps 1 to 3: the status and detail of the first check that fails. -/
def vecCheck (s : State) (k : Nat) (d : VecD) : Option (Status × Nat) :=
  if vecBad d then some (.badDescriptor, 1)
  else if vecFmtBad d then some (.badDescriptor, 2)
  else if d.opcode = 0x10 ∧ ((s.vxe k).tables.getD (d.aux % 8) none).isNone then some (.badDescriptor, 3)
  else if d.len = 0 ∨ (d.rows = true ∧ d.rowLen = 0) ∨ (d.opcode = 0x40 ∧ bit d.aux 0 = true ∧ d.imm = 0) then some (.zero, 0)
  else if vecRange d then some (.outOfRange, 0)
  else none

/-! ### The run of one instruction -/

/-- What a running instruction has gathered: the state, the flags, the poisoned destination lines, the active elements,
and the rows found empty. -/
structure VAcc where
  s : State
  flags : VFlags
  bad : List Nat
  active : Nat
  empty : Nat

/-- The context of an instruction: its core and its descriptor. -/
structure VCtx where
  k : Nat
  d : VecD
  deriving DecidableEq, Repr

/-- An absolute address of the core's scratchpad. -/
def VCtx.sp (c : VCtx) (off : Nat) : Nat := scratchAddr c.k off

/-- R116: is element i's lane active. -/
def VCtx.lane (c : VCtx) (s : State) (i : Nat) : Bool :=
  !c.d.maskEn || (s.byte (c.sp (c.d.mask + i / 8))).getLsbD (i % 8)

/-- Element i of A. -/
def VCtx.a (c : VCtx) (s : State) (i : Nat) : FVal × Bool := elemOf s c.d.fmtA (c.sp c.d.srcA) i
/-- Element i of the destination, as a source. -/
def VCtx.dOld (c : VCtx) (s : State) (i : Nat) : FVal × Bool := elemOf s c.d.fmtD (c.sp c.d.dst) i

/-- R113: operand b of element i. -/
def VCtx.b (c : VCtx) (s : State) (i : Nat) : FVal × Bool :=
  match c.d.bmode with
  | 0 => elemOf s c.d.fmtA (c.sp c.d.srcB) i
  | 1 => elemOf s c.d.fmtA (c.sp c.d.srcB) (i / c.d.rowLen)
  | 2 => elemOf s c.d.fmtA (c.sp c.d.srcB) (i % c.d.rowLen)
  | _ => (if isIntFmt c.d.fmtA then FVal.ofInt (toInt 32 c.d.imm) else fp32.decode c.d.imm, false)

/-- Bytes of the destination replaced, element by element, in a list that starts at element `i0`. -/
def patchElem (fmt i0 : Nat) (l : List Byte) (i e : Nat) : List Byte :=
  let base := (elemSpan fmt i0).1
  let o := (elemSpan fmt i).1 - base
  if fmt = 3 then
    let v := fieldAt l o 2
    let v := if i % 2 = 0 then v / 4096 * 4096 + e % 4096 else e % 4096 * 16 + v % 16
    (l.set o (BitVec.ofNat 8 v)).set (o + 1) (BitVec.ofNat 8 (v / 256))
  else
    let w := elemBits fmt / 8
    (List.range w).foldl (fun l j => l.set (o + j) (BitVec.ofNat 8 (e / 256^j))) l

/-- A byte range of the scratchpad rewritten: lines that hold a poisoned element become poisoned; a line covered whole
keeps a mark only where an element of it was left alone. -/
def VAcc.put (x : VAcc) (a : Nat) (b : List Byte) (badLines kept : List Nat) : VAcc :=
  let s := (List.range ((a + b.length - 1) / 64 - a / 64 + 1)).foldl (fun s i =>
    let line := a / 64 + i
    let from_ := max a (line * 64)
    let to_ := min (a + b.length) (line * 64 + 64)
    let p := badLines.contains line || (kept.contains line && s.linePoison (line * 64))
    s.writeLine from_ ((b.drop (from_ - a)).take (to_ - from_)) p) x.s
  { x with s := s, bad := badLines.foldl (fun l n => nsInsert n l) x.bad }

/-- The lines that hold element i of the destination. -/
def VCtx.dLines (c : VCtx) (i : Nat) : List Nat :=
  let sp := elemSpan c.d.fmtD i
  let a := c.sp c.d.dst + sp.1
  [a / 64, (a + sp.2 - 1) / 64]

/-- Converted result elements written: (index, value, poison), masked lanes left out; `n` elements from `i0`. -/
def VCtx.putElems (c : VCtx) (x : VAcc) (i0 n : Nat) (r : List (Nat × FVal × Bool)) : VAcc :=
  let fmt := c.d.fmtD
  let off := (elemSpan fmt i0).1
  let len := (elemSpan fmt (i0 + n - 1)).1 + (elemSpan fmt (i0 + n - 1)).2 - off
  let old := x.s.bytes (c.sp c.d.dst + off) len
  let conv := r.map fun e =>
    if e.2.2 then (e.1, nanOf fmt, (0 : ConvFlags)) else let q := convOut fmt none false e.2.1; (e.1, q.1, q.2)
  let new := conv.foldl (fun l e => patchElem fmt i0 l e.1 e.2.1) old
  let sat := conv.any fun e => e.2.2 &&& (fpSat ||| intSat) != 0
  -- R137: a NaN that the conversion makes of an infinity (R101) is one produced from a non-NaN operand
  let inv := conv.any fun e => e.2.2 &&& infToNan != 0
  let bad := (r.map fun e => if e.2.2 then c.dLines e.1 else []).flatten
  let kept := ((List.range n).map fun i => if r.any fun e => e.1 = i0 + i then [] else c.dLines (i0 + i)).flatten
  let x := x.put (c.sp c.d.dst + off) new bad kept
  { x with flags := x.flags ||| (if sat then vSat else 0) ||| (if inv then vInvalid else 0), active := x.active + r.length }

/-! ### Elementwise operations (R118) -/

/-- An exact integer held in INT32, saturating (R110). DEDUCED: log entry 37. -/
def satInt (v : Int) : FRes :=
  if v > 2147483647 then (FVal.ofInt 2147483647, vSat)
  else if v < -2147483648 then (FVal.ofInt (-2147483648), vSat) else (FVal.ofInt v, 0)

/-- The integer operations. -/
def intOp (o : Nat) (a b : Int) : FRes :=
  match o with
  | 1 => satInt (a + b)
  | 2 => satInt (a - b)
  | 3 => satInt (a * b)
  | 5 => satInt (min a b)
  | 6 => satInt (max a b)
  | 7 => satInt a.natAbs
  | _ => satInt a

/-- R123: element a through a table. -/
def lutEval (t : VTable) (quad : Bool) (a : FVal) : FRes :=
  if a.isNan then (.nan, vInvalid)
  else
    let y := fun j => fp32.decode (t.y.getD j 0).toNat
    let (d0, f0) := F.sub a (fp32.decode t.xMin.toNat)
    let (tv, f1) := F.mul d0 (fp32.decode t.invStep.toNat)
    let zero := FVal.fin false 0 0
    let top := FVal.fin false 511 0
    let low := tv.lt zero
    let high := top.lt tv
    let tv := if low then zero else if high then top else tv
    let fd := if low || high then vDomain else 0
    let j := min (F.floorNat tv) (if quad then 509 else 510)
    let (f, f2) := F.sub tv (FVal.fin false j 0)
    let (d1, f3) := F.sub (y (j + 1)) (y j)
    let (p1, f4) := F.mul f d1
    let (s1, f5) := F.add (y j) p1
    let fl := f0 ||| f1 ||| fd ||| f2 ||| f3 ||| f4 ||| f5
    if !quad then (s1, fl)
    else
      let (q, f6) := F.mul (FVal.fin false 2 0) (y (j + 1))
      let (e, f7) := F.sub (y (j + 2)) q
      let (d2, f8) := F.add e (y j)
      let (g, f9) := F.sub f (FVal.fin false 1 0)
      let (h, f10) := F.mul f g
      let (i, f11) := F.div h (FVal.fin false 2 0)
      let (r, f12) := F.mul i d2
      let (v, f13) := F.add s1 r
      (v, fl ||| f6 ||| f7 ||| f8 ||| f9 ||| f10 ||| f11 ||| f12 ||| f13)

/-- The result of an elementwise operation from a, b and the old destination. -/
def floatOp (o : Nat) (tab : Option VTable) (aux : Nat) (a b d : FVal) : FRes :=
  match o with
  | 1 => F.add a b
  | 2 => F.sub a b
  | 3 => F.mul a b
  | 4 => F.fma a b d
  | 5 => (F.min a b, 0)
  | 6 => (F.max a b, 0)
  | 7 => (a.abs, 0)
  | 0x0A => F.div a b
  | 0x0B => F.sqrt a
  | 0x0C => F.rsqrt a
  | 0x0D => F.rcp a
  | 0x0E => F.exp a
  | 0x0F => F.ln a
  | 0x10 => (match tab with
    | some t => lutEval t (bit aux 3) a
    | none => (.nan, 0))
  | _ => (a, 0)

/-- R118: the condition of CMP. -/
def cmpCond (cond : Nat) (a b : FVal) : Bool :=
  match cond with
  | 0 => a.eqv b
  | 1 => !a.eqv b
  | 2 => a.lt b
  | 3 => a.le b
  | 4 => b.lt a
  | _ => b.le a

/-- R109: the lanes of an instruction. -/
def vecLanes (d : VecD) : Nat :=
  let o := d.opcode
  let f := if o = 9 ∨ vecRed o then elemBits d.fmtA else max (elemBits d.fmtA) (elemBits d.fmtD)
  if o = 0x40 ∨ f = 32 then 1024 else if f = 8 then 4096 else 2048

/-- The lane groups of row r in order: first element and count (R111, R114); without ROWS, all elements are row 0. -/
def rowGroups (d : VecD) (r : Nat) : List (Nat × Nat) :=
  let lanes := vecLanes d
  let n := if d.rows then d.rowLen else d.len
  (List.range (ceilDiv n lanes)).map fun g => (r * n + g * lanes, min lanes (n - g * lanes))

/-- The lane groups of an instruction in order. -/
def vecGroups (d : VecD) : List (Nat × Nat) := ((List.range d.nRows).map (rowGroups d)).flatten

/-- The results of one lane group; every source is read before anything is written. -/
def elemGroup (c : VCtx) (x : VAcc) (g : Nat × Nat) : VAcc :=
  let d := c.d
  let idx := ((List.range g.2).map fun i => g.1 + i).filter (c.lane x.s)
  let tab := (x.s.vxe c.k).tables.getD (d.aux % 8) none
  let r := idx.map fun i =>
    let (a, pa) := c.a x.s i
    let (b, pb) := if vecBinary d.opcode then c.b x.s i else (FVal.nan, false)
    let (o, po) := if d.opcode = 4 then c.dOld x.s i else (FVal.nan, false)
    let p := pa || pb || po
    let v := if isIntFmt d.fmtA then intOp d.opcode a.toInt b.toInt else floatOp d.opcode tab d.aux a b o
    (i, v.1, p, if p then 0 else v.2)
  let x := c.putElems x g.1 g.2 (r.map fun e => (e.1, e.2.1, e.2.2.1))
  { x with flags := r.foldl (fun f e => f ||| e.2.2.2) x.flags }

/-- One lane group of CMP: the bitmap's bits. -/
def cmpGroup (c : VCtx) (x : VAcc) (g : Nat × Nat) : VAcc :=
  let d := c.d
  let idx := ((List.range g.2).map fun i => g.1 + i).filter (c.lane x.s)
  let r := idx.map fun i =>
    let (a, pa) := c.a x.s i
    let (b, pb) := c.b x.s i
    (i, cmpCond d.aux a b, pa || pb)
  let b0 := g.1 / 8
  let n := (g.1 + g.2 - 1) / 8 - b0 + 1
  let old := x.s.bytes (c.sp (d.dst + b0)) n
  let new := r.foldl (fun l e =>
    modAt (fun v => BitVec.ofNat 8 (setBits v.toNat (e.1 % 8) (e.1 % 8) (if e.2.1 && !e.2.2 then 1 else 0))) (e.1 / 8 - b0) l) old
  let lineOf := fun i => c.sp (d.dst + i / 8) / 64
  let bad := r.filterMap fun e => if e.2.2 then some (lineOf e.1) else none
  let kept := ((List.range (8 * n)).map fun i => 8 * b0 + i).filterMap fun i =>
    if r.any fun e => e.1 = i then none else some (lineOf i)
  let x := x.put (c.sp (d.dst + b0)) new bad kept
  { x with active := x.active + r.length }

/-! ### Per-row operations -/

/-- The active elements of row r, in index order: index, value, poison. -/
def VCtx.row (c : VCtx) (s : State) (r : Nat) : List (Nat × FVal × Bool) :=
  (((List.range c.d.rowLen).map fun j => r * c.d.rowLen + j).filter (c.lane s)).map fun i => (i, c.a s i)

/-- A list of FP32 operations in order, with their flags. -/
def mapF (f : FVal → FRes) (l : List FVal) : List FVal × VFlags :=
  let r := l.map f
  (r.map Prod.fst, r.foldl (fun a x => a ||| x.2) 0)

/-- R118: REDSUM, REDMAX, REDMIN and RMSINV of a row's active values. The square root and the division of RMSINV are two
FP32 operations (R110). DEDUCED: log entry 37. -/
def redOp (d : VecD) (v : List FVal) : FRes :=
  match d.opcode with
  | 0x20 => F.treeSum v
  | 0x21 => (v.foldl F.max (.inf true), 0)
  | 0x22 => (v.foldl F.min (.inf false), 0)
  | _ =>
    let (q, f0) := mapF (fun a => F.mul a a) v
    let (t, f1) := F.treeSum q
    let (m, f2) := F.div t (.fin false d.rowLen 0)
    let (e, f3) := F.add m (fp32.decode d.imm)
    let (q, f4) := F.sqrt e
    let (r, f5) := F.div (.fin false 1 0) q
    (r, f0 ||| f1 ||| f2 ||| f3 ||| f4 ||| f5)

def redRow (c : VCtx) (x : VAcc) (r : Nat) : VAcc :=
  let row := c.row x.s r
  let p := row.any fun e => e.2.2
  let (v, f) := redOp c.d (row.map fun e => e.2.1)
  let a := c.sp (c.d.dst + 4 * r)
  let x := x.put a (leBytes 4 (if p then fp32.canonNan else v.enc fp32)) (if p then [a / 64] else []) []
  { x with flags := x.flags ||| (if p then 0 else f), active := x.active + row.length }

/-- A softmax state record (R125): m, s, w and whether its line is poisoned. -/
def smaxState (s : State) (a : Nat) : FVal × FVal × FVal × Bool :=
  (fp32.decode (leNat (s.bytes a 4)), fp32.decode (leNat (s.bytes (a + 4) 4)), fp32.decode (leNat (s.bytes (a + 8) 4)),
    s.linePoison a)

/-- A state record's m, s and w written; the flags word stays, but for EMPTY where the row is found empty. -/
def VAcc.putState (x : VAcc) (a : Nat) (m sv w : FVal) (p empty : Bool) : VAcc :=
  let e := fun (v : FVal) => leBytes 4 (if p then fp32.canonNan else v.enc fp32)
  let fl := leNat (x.s.bytes (a + 12) 4)
  x.put a (e m ++ e sv ++ e w ++ leBytes 4 (if empty then setBits fl 0 0 1 else fl)) (if p then [a / 64] else []) [a / 64]

/-- A row's elements written lane group by lane group (R111): of each group, the active elements' values by `f`, read
from the state as the group finds it, are written before the next group is read. The values come back in index order. -/
def VCtx.mapRow (c : VCtx) (x : VAcc) (r : Nat) (p : Bool) (f : State → Nat → FRes) : VAcc × List FVal :=
  (rowGroups c.d r).foldl (fun (acc : VAcc × List FVal) g =>
    let x := acc.1
    let v := (((List.range g.2).map fun j => g.1 + j).filter (c.lane x.s)).map fun i => (i, f x.s i)
    let y := c.putElems x g.1 g.2 (v.map fun e => (e.1, e.2.1, p))
    let fl := v.foldl (fun a e => a ||| e.2.2) y.flags
    ({ y with flags := if p then x.flags else fl }, acc.2 ++ v.map fun e => e.2.1)) (x, [])

/-- Flags raised, unless the row is poisoned (R117). -/
def VAcc.raise (x : VAcc) (p : Bool) (f : VFlags) : VAcc := if p then x else { x with flags := x.flags ||| f }

/-- R126. The maximum is taken over the row as the row begins, and the probabilities are then read, formed and written
lane group by lane group (two passes, R118). DEDUCED: log entry 37. -/
def smaxRow (c : VCtx) (x : VAcc) (r : Nat) : VAcc :=
  let row := c.row x.s r
  let sa := c.sp (c.d.srcB + 16 * r)
  let (m, sv, _, ps) := smaxState x.s sa
  let p := ps || row.any fun e => e.2.2
  let mn := F.max m ((row.map fun e => e.2.1).foldl F.max (.inf true))
  if mn = .inf true then
    (c.mapRow x r p fun _ _ => (.fin false 0 0, 0)).1.putState sa mn sv (.fin false 1 0) p false
  else
    let (e0, f0) := F.sub m mn
    let (w, f1) := F.exp e0
    let (x, ex) := c.mapRow x r p fun s i =>
      let (df, f2) := F.sub (c.a s i).1 mn
      let (e, f3) := F.exp df
      (e, f2 ||| f3)
    let (sum, f4) := F.treeSum ex
    let (ws, f5) := F.mul w sv
    let (s2, f6) := F.add ws sum
    (x.raise p (f0 ||| f1 ||| f4 ||| f5 ||| f6)).putState sa mn s2 w p false

/-- R127: d × w + a, lane group by lane group. -/
def smaxRescale (c : VCtx) (x : VAcc) (r : Nat) : VAcc :=
  let row := c.row x.s r
  let (_, _, w, ps) := smaxState x.s (c.sp (c.d.imm + 16 * r))
  let p := ps || row.any fun e => e.2.2 || (c.dOld x.s e.1).2
  (c.mapRow x r p fun s i =>
    let (q, f0) := F.mul (c.dOld s i).1 w
    let (v, f1) := F.add q (c.a s i).1
    (v, f0 ||| f1)).1

/-- R128: the merged output, lane group by lane group, and then the merged state. -/
def smaxMerge (c : VCtx) (x : VAcc) (r : Nat) : VAcc :=
  let row := c.row x.s r
  let sa := c.sp (c.d.imm + 16 * r)
  let (m1, s1, _, p1) := smaxState x.s (c.sp (c.d.srcB + 16 * r))
  let (m2, s2, w2, p2) := smaxState x.s sa
  let p := p1 || p2 || row.any fun e => e.2.2 || (c.dOld x.s e.1).2
  let mn := F.max m1 m2
  if mn = .inf true then
    (c.mapRow x r p fun _ _ => (.fin false 0 0, 0)).1.putState sa mn (.fin false 0 0) w2 p false
  else
    let (a1, g0) := F.sub m1 mn
    let (c1, g1) := F.exp a1
    let (a2, g2) := F.sub m2 mn
    let (c2, g3) := F.exp a2
    let (t1, g4) := F.mul c1 s1
    let (t2, g5) := F.mul c2 s2
    let (sv, g6) := F.add t1 t2
    let x := (c.mapRow x r p fun s i =>
      let (q1, h0) := F.mul c1 (c.a s i).1
      let (q2, h1) := F.mul c2 (c.dOld s i).1
      let (v, h2) := F.add q1 q2
      (v, h0 ||| h1 ||| h2)).1
    (x.raise p (g0 ||| g1 ||| g2 ||| g3 ||| g4 ||| g5 ||| g6)).putState sa mn sv w2 p false

/-- R129: O / s, lane group by lane group, and then the log-sum-exp. -/
def smaxFinal (c : VCtx) (x : VAcc) (r : Nat) : VAcc :=
  let row := c.row x.s r
  let sa := c.sp (c.d.srcB + 16 * r)
  let (m, sv, _, ps) := smaxState x.s sa
  let p := ps || row.any fun e => e.2.2
  if sv.isZero && !p then
    let x := ((c.mapRow x r false fun _ _ => (.fin false 0 0, 0)).1).putState sa m sv (.inf true) false true
    { x with empty := x.empty + 1 }
  else
    let (l, f1) := F.ln sv
    let (w, f2) := F.add m l
    let x := (c.mapRow x r p fun s i => F.div (c.a s i).1 sv).1
    (x.raise p (f1 ||| f2)).putState sa m sv w p false

/-! ### Sampling (R130 to R132) -/

/-- A candidate: its index, logit, z and weight. -/
structure Cand where
  i : Nat
  l : FVal
  z : FVal
  w : FVal
  deriving DecidableEq, Repr

/-- A candidate put into the list by weight, descending, the lower index first among equals. -/
def candInsert (c : Cand) : List Cand → List Cand
  | [] => [c]
  | h :: t => if h.w.lt c.w then c :: h :: t else h :: candInsert c t

def candSort (l : List Cand) : List Cand := l.foldl (fun acc c => candInsert c acc) []

/-- The sequential FP32 sum of weights. -/
def seqSum (l : List Cand) : FVal := l.foldl (fun a c => (F.add a c.w).1) (.fin false 0 0)

/-- The shortest prefix whose sequential sum reaches a bound; the whole list where none does. -/
def prefixTo (bound : FVal) : FVal → List Cand → List Cand
  | _, [] => []
  | acc, c :: t =>
    let acc := (F.add acc c.w).1
    if bound.le acc then [c] else c :: prefixTo bound acc t

/-- The first candidate whose sequential sum exceeds a bound, else the last. -/
def pickCand (bound : FVal) (last : Cand) : FVal → List Cand → Cand
  | _, [] => last
  | acc, c :: t =>
    let acc := (F.add acc c.w).1
    if bound.lt acc then c else pickCand bound c acc t

/-- R131 on the active logits: the result's four words and the flags, none when no candidate is left. -/
def sampleDraw (d : VecD) (p : List Byte) (logits : List (Nat × FVal)) : Option (Nat × FVal × FVal × Nat) × VFlags :=
  let cand := logits.filter fun e => !e.2.isNan
  let fl : VFlags := if cand.length < logits.length then vInvalid else 0
  match cand with
  | [] => (none, fl)
  | c0 :: _ =>
    let temp := fp32.decode (fieldAt p 16 4)
    let t := if temp.isZero then FVal.fin false 1 0 else temp
    let zs := cand.map fun e => (e, F.div e.2 t)
    let fl := zs.foldl (fun f e => f ||| e.2.2) fl
    let zmax := zs.foldl (fun m e => F.max m e.2.1) (.inf true)
    let cs : List (Cand × VFlags) := zs.map fun e =>
      if zmax.isInf then
        (⟨e.1.1, e.1.2, e.2.1, if e.2.1.eqv zmax then .fin false 1 0 else .fin false 0 0⟩, 0)
      else
        let (df, f0) := F.sub e.2.1 zmax
        let (w, f1) := F.exp df
        (⟨e.1.1, e.1.2, e.2.1, w⟩, f0 ||| f1)
    let fl := cs.foldl (fun f e => f ||| e.2) fl
    let cs := cs.map Prod.fst
    let (sum, f2) := F.treeSum (cs.map Cand.w)
    let fl := fl ||| f2
    let full := fun (c : Cand) =>
      if zmax.isInf then (F.ln (F.div c.w sum).1).1
      else (F.sub (F.sub c.z zmax).1 (F.ln sum).1).1
    if temp.isZero then
      let best := cs.foldl (fun (b : Cand) c => if b.l.lt c.l then c else b) ⟨c0.1, c0.2, c0.2, .fin false 0 0⟩
      let best := (cs.find? fun c => c.i = best.i).getD best
      (some (best.i, full best, .fin false 0 0, 1), fl)
    else
      let order := candSort cs
      let kept := if bit d.aux 0 then order.take (min d.imm order.length) else order
      let w0 := seqSum kept
      let topp := fieldAt p 24 4 == 1
      let kept := if topp then prefixTo (F.mul (fp32.decode (fieldAt p 20 4)) w0).1 (.fin false 0 0) kept else kept
      let w := if topp then seqSum kept else w0
      let r := philoxWord0 (fieldAt p 0 4) (fieldAt p 4 4) (fieldAt p 8 4) (fieldAt p 12 4) 0 0
      let u := FVal.fin false (r / 256) (-24)
      let last := kept.getLastD ⟨0, .nan, .nan, .nan⟩
      let tok := pickCand (F.mul u w).1 last (.fin false 0 0) kept
      (some (tok.i, full tok, (F.ln (F.div tok.w w).1).1, kept.length), fl)

/-! ### Completion (R136) -/

/-- R121, R133: the cycles of an instruction that passes R115. -/
def vecCycles (d : VecD) (idle : Bool) : Nat :=
  let start := if idle then 12 else 0
  let o := d.opcode
  if o = 0x11 then start + 40
  else if o = 0x40 then
    start + 16 + 2 * ceilDiv d.len 1024
  else
    let g := (vecGroups d).length
    let passes := if o = 0x0A ∨ o = 0x0B ∨ o = 0x30 ∨ o = 0x33 then 2 else 1
    start + 4 + passes * g + (if 0x20 ≤ o ∧ o ≤ 0x33 then 10 else 0)

/-- R133 for a SAMPLE that is not greedy. -/
def sampleCycles (d : VecD) (idle : Bool) (topp : Bool) : Nat :=
  let g := ceilDiv d.len 1024
  (if idle then 12 else 0) + 24 + 4 * g + (if bit d.aux 0 then 8 * ceilDiv (min d.imm d.len) 64 else 0)
    + (if topp && !bit d.aux 0 then 24 * g else 0)

/-- The first 24 bytes of a vector completion record. DEDUCED: log entries 35, 36. -/
def vecRec (st detail : Nat) (flags : VFlags) (opcode : Nat) (seq : Word) (empty active cycles : Nat) : List Byte :=
  leBytes 1 st ++ leBytes 1 (min detail 255) ++ leBytes 1 flags.toNat ++ leBytes 1 opcode ++ leBytes 4 seq.toNat
  ++ leBytes 2 0 ++ leBytes 2 (min empty 65535) ++ leBytes 4 (min active 0xFFFFFFFF) ++ leBytes 8 (cycles % 2^48)

/-- A vector completion, with the sticky flags and the busy counter. -/
def vecComplete (s : State) (k : Nat) (i : TileIns) (st : Status) (detail : Nat) (flags : VFlags)
    (empty active cycles : Nat) : State :=
  let d := vecD i.desc
  let s := s.orReg .vxeFlags k [] (flags.setWidth 32)
  let s := if cycles = 0 then s else s.inc48 .vxeBusyLo .vxeBusyHi k [] cycles
  s.complete (.vxe k) ⟨vecRec (statusCode st) detail flags d.opcode i.seq empty active cycles, [],
    BitVec.ofNat 8 (statusCode st), d.tally⟩

/-- The completion of an instruction that has written: POISON counts the poisoned lines (R117). -/
def vecDone (k : Nat) (i : TileIns) (x : VAcc) (met : Bool) : State :=
  let cyc := vecCycles (vecD i.desc) i.idle
  let x := if x.empty = 0 then x else { x with s := x.s.incReg .supSrvEmpty 0 [] x.empty }
  if !x.bad.isEmpty ∨ met then vecComplete x.s k i .poison x.bad.length x.flags x.empty x.active cyc
  else vecComplete x.s k i .ok 0 x.flags x.empty x.active cyc

/-- R122: LUTLOAD. -/
def runLutload (c : VCtx) (i : TileIns) (s : State) : State :=
  let d := c.d
  let cyc := vecCycles d i.idle
  if !c.lane s 0 then vecComplete s c.k i .ok 0 0 0 0 cyc
  else
    let t := d.aux % 8
    let setTab := fun (v : Option VTable) => s.modVxe c.k fun x => { x with tables := x.tables.set t v }
    let a := c.sp d.srcA
    if s.rangePoison a 2112 then vecComplete (setTab none) c.k i .poison 0 0 0 1 cyc
    else
      let xm := leNat (s.bytes a 4)
      let st := leNat (s.bytes (a + 4) 4)
      let xv := fp32.decode xm
      let sv := fp32.decode st
      if xv.isNan || xv.isInf || sv.isNan || sv.isInf || sv.isZero || sv.sign then
        vecComplete (setTab none) c.k i .badDescriptor 4 0 0 1 cyc
      else
        let y := (List.range 512).map fun j => BitVec.ofNat 32 (leNat (s.bytes (a + 64 + 4 * j) 4))
        vecComplete (setTab (some ⟨BitVec.ofNat 32 xm, BitVec.ofNat 32 st, y⟩)) c.k i .ok 0 0 0 1 cyc

/-- R133: the cycles of a SAMPLE by its parameter block. -/
def sampleCyclesOf (d : VecD) (idle : Bool) (p : List Byte) : Nat :=
  if (fp32.decode (fieldAt p 16 4)).isZero then vecCycles d idle else sampleCycles d idle (fieldAt p 24 4 == 1)

/-- R130 to R132: SAMPLE. Step 4 of R115 comes before anything of the mask or the logits; the cycles of a SAMPLE whose
parameter block is poisoned are a free value. DEDUCED: log entry 36. -/
def runSample (c : VCtx) (i : TileIns) (s : State) : State :=
  let d := c.d
  let pa := c.sp d.srcB
  let p := s.bytes pa 32
  if s.rangePoison pa 32 then
    let (v, s) := s.draw
    vecComplete s c.k i .poison 0 0 0 0 v.toNat
  else if sampleParamBad p then vecComplete s c.k i .badDescriptor 4 0 0 0 0
  else
    let cyc := sampleCyclesOf d i.idle p
    let idx := (List.range d.len).filter (c.lane s)
    let row := idx.map fun j => (j, c.a s j)
    if d.maskEn ∧ s.rangePoison (c.sp d.mask) ((d.len + 7) / 8) then vecComplete s c.k i .poison 0 0 0 0 cyc
    else if row.any fun e => e.2.2 then vecComplete s c.k i .poison 0 0 0 idx.length cyc
    else
      match sampleDraw d p (row.map fun e => (e.1, e.2.1)) with
      | (none, f) => vecComplete s c.k i .zero 0 f 0 idx.length cyc
      | (some (tok, lf, lk, kept), f) =>
        let b := leBytes 4 tok ++ leBytes 4 (lf.enc fp32) ++ leBytes 4 (lk.enc fp32) ++ leBytes 4 kept
        vecComplete (s.write (c.sp d.dst) b) c.k i .ok 0 f 0 idx.length cyc

/-- The rows or lane groups of the remaining operations. -/
def runRows (c : VCtx) (x : VAcc) : VAcc :=
  let d := c.d
  let rows := List.range d.nRows
  match d.opcode with
  | 0x30 => rows.foldl (smaxRow c) x
  | 0x31 => rows.foldl (smaxRescale c) x
  | 0x32 => rows.foldl (smaxMerge c) x
  | 0x33 => rows.foldl (smaxFinal c) x
  | 9 => (vecGroups d).foldl (cmpGroup c) x
  | _ => if vecRed d.opcode then rows.foldl (redRow c) x else (vecGroups d).foldl (elemGroup c) x

/-- An instruction runs: R115, then its effect and its record. -/
def vecRun (s : State) (k : Nat) (i : TileIns) : State :=
  let d := vecD i.desc
  match vecCheck s k d with
  | some (st, det) => vecComplete s k i st det 0 0 0 0
  | none =>
    let c : VCtx := ⟨k, d⟩
    if d.opcode = 0x40 then runSample c i s
    else if d.maskEn ∧ s.rangePoison (c.sp d.mask) ((d.len + 7) / 8) then vecComplete s k i .poison 0 0 0 0 (vecCycles d i.idle)
    else if d.opcode = 0x11 then runLutload c i s
    else vecDone k i (runRows c ⟨s, 0, [], 0, 0⟩) false

/-! ### The queue (R135) -/

def vxeIdle (v : Vxe) : Bool := v.queue.isEmpty

/-- An instruction enters the vector engine's queue. -/
def vxeEnqueue (s : State) (k : Nat) (desc : List Byte) : State × Word :=
  let v := s.vxe k
  (s.modVxe k fun v => { v with queue := v.queue ++ [{ desc, seq := v.seq, idle := vxeIdle v }], seq := v.seq + 1 }, v.seq)

/-- Waiting pushes enter while the vector queue has room. -/
def vxeServe : Nat → State → Nat → State
  | 0, s, _ => s
  | n + 1, s, k =>
    match (s.vxe k).waiters with
    | [] => s
    | w :: t =>
      if (s.vxe k).queue.length < 8 then
        let s := s.modVxe k fun v => { v with waiters := t }
        let (s, q) := vxeEnqueue s k w.desc
        vxeServe n (hartGo s w.hart w.rd (q.setWidth 64)) k
      else s

/-- ENABLE is set and no completion is held. DEDUCED: log entry 38. -/
def vxeMayStart (s : State) (k : Nat) : Bool := s.fld .vxeCtrl k [] 0 0 == 1 && (s.vxe k).held.isEmpty

/-- The head of a core's vector queue runs, when it carries the operation `o` or none that R118 lists.
DEDUCED: log entry 11. -/
def vecCmd (s : State) (k o : Nat) : State :=
  if s.coreFallow k || !vxeMayStart s k then s
  else match (s.vxe k).queue with
    | [] => s
    | i :: rest =>
      let op := fieldAt i.desc 0 1
      if op = o ∨ vecOpKnown op = false then
        vecRun (vxeServe 8 (s.modVxe k fun v => { v with queue := rest }) k) k i
      else s

def execAdd (k : CoreIx) (s : State) : Host.Outcome State Fault Refusal := powered s (vecCmd s k 0x01)
def execSub (k : CoreIx) (s : State) : Host.Outcome State Fault Refusal := powered s (vecCmd s k 0x02)
def execMul (k : CoreIx) (s : State) : Host.Outcome State Fault Refusal := powered s (vecCmd s k 0x03)
def execFma (k : CoreIx) (s : State) : Host.Outcome State Fault Refusal := powered s (vecCmd s k 0x04)
def execMin (k : CoreIx) (s : State) : Host.Outcome State Fault Refusal := powered s (vecCmd s k 0x05)
def execMax (k : CoreIx) (s : State) : Host.Outcome State Fault Refusal := powered s (vecCmd s k 0x06)
def execAbs (k : CoreIx) (s : State) : Host.Outcome State Fault Refusal := powered s (vecCmd s k 0x07)
def execCvt (k : CoreIx) (s : State) : Host.Outcome State Fault Refusal := powered s (vecCmd s k 0x08)
def execCmp (k : CoreIx) (s : State) : Host.Outcome State Fault Refusal := powered s (vecCmd s k 0x09)
def execDiv (k : CoreIx) (s : State) : Host.Outcome State Fault Refusal := powered s (vecCmd s k 0x0A)
def execSqrt (k : CoreIx) (s : State) : Host.Outcome State Fault Refusal := powered s (vecCmd s k 0x0B)
def execRsqrt (k : CoreIx) (s : State) : Host.Outcome State Fault Refusal := powered s (vecCmd s k 0x0C)
def execRcp (k : CoreIx) (s : State) : Host.Outcome State Fault Refusal := powered s (vecCmd s k 0x0D)
def execExp (k : CoreIx) (s : State) : Host.Outcome State Fault Refusal := powered s (vecCmd s k 0x0E)
def execLog (k : CoreIx) (s : State) : Host.Outcome State Fault Refusal := powered s (vecCmd s k 0x0F)
def execLut (k : CoreIx) (s : State) : Host.Outcome State Fault Refusal := powered s (vecCmd s k 0x10)
def execLutload (k : CoreIx) (s : State) : Host.Outcome State Fault Refusal := powered s (vecCmd s k 0x11)
def execRedsum (k : CoreIx) (s : State) : Host.Outcome State Fault Refusal := powered s (vecCmd s k 0x20)
def execRedmax (k : CoreIx) (s : State) : Host.Outcome State Fault Refusal := powered s (vecCmd s k 0x21)
def execRedmin (k : CoreIx) (s : State) : Host.Outcome State Fault Refusal := powered s (vecCmd s k 0x22)
def execRmsinv (k : CoreIx) (s : State) : Host.Outcome State Fault Refusal := powered s (vecCmd s k 0x23)
def execSmaxRow (k : CoreIx) (s : State) : Host.Outcome State Fault Refusal := powered s (vecCmd s k 0x30)
def execSmaxRescale (k : CoreIx) (s : State) : Host.Outcome State Fault Refusal := powered s (vecCmd s k 0x31)
def execSmaxMerge (k : CoreIx) (s : State) : Host.Outcome State Fault Refusal := powered s (vecCmd s k 0x32)
def execSmaxFinal (k : CoreIx) (s : State) : Host.Outcome State Fault Refusal := powered s (vecCmd s k 0x33)
def execSample (k : CoreIx) (s : State) : Host.Outcome State Fault Refusal := powered s (vecCmd s k 0x40)

/-! ### Control (R137) -/

/-- Every queued instruction completes with CANCELLED. -/
def vxeFlush (s : State) (k : Nat) : State :=
  let q := (s.vxe k).queue
  let s := s.modVxe k fun v => { v with queue := [] }
  vxeServe 8 (q.foldl (fun s i => vecComplete s k i .cancelled 0 0 0 0 0) s) k

def execVxeFlush (k : CoreIx) (s : State) : Host.Outcome State Fault Refusal := powered s (vxeFlush s k)

/-- ENABLE takes effect at once. -/
def execVxeEnable (k : CoreIx) (en : Bool) (s : State) : Host.Outcome State Fault Refusal :=
  powered s (s.setFld .vxeCtrl k [] 0 0 en.toNat)

end Sys2Proof.Machine
end

