-- ==== Sys2Proof/Machine/Harts.lean ====
section
/-! DEFINITION. The harts' Xkvl instructions and fences, and the tallies (R138 to R145, R163 to R165, R186 to R194). -/

namespace Sys2Proof.Machine

/-! ### Traps (R141) -/

/-- The causes of the RISC-V privileged architecture that a kernel can raise here. -/
inductive TrapCause where
  | illegal | loadMisaligned | loadAccess | storeMisaligned | storeAccess
  deriving DecidableEq, Repr

def TrapCause.code : TrapCause → Nat
  | .illegal => 2 | .loadMisaligned => 4 | .loadAccess => 5 | .storeMisaligned => 6 | .storeAccess => 7

/-- The harts of a core stop: their waits, stalled pushes and stalled re-arms end with them. DEDUCED: log entry 24. -/
def stopCore (s : State) (k : Nat) : State :=
  let s := (List.range 4).foldl (fun s j => s.modHart (4 * k + j) fun t => { t with hold := .stopped }) s
  let mine := fun (w : PushWait) => decide (w.hart / 4 ≠ k)
  { s with
    waits := s.waits.filter fun w => decide (w.hart / 4 ≠ k)
    cores := SMap.mapVals (fun _ c => { c with
      mxe := { c.mxe with waiters := c.mxe.waiters.filter mine }
      vxe := { c.vxe with waiters := c.vxe.waiters.filter mine }
      str := c.str.map fun x => { x with waiters := x.waiters.filter mine } }) s.cores }

/-- A trap from a kernel enters resident firmware: the saved registers are written, the hart is in machine mode, the
core's harts stop, its constellation work ends with FAULT_HALT, its rings leave the multicast sets, and a TRAP record
is written. DEDUCED: log entry 24. -/
def trap (s : State) (h : Nat) (cause : TrapCause) (tval : DWord) : State :=
  let pc := (s.hart h).pc
  let c := BitVec.ofNat 64 cause.code
  let s := stopCore s (h / 4)
  let s := s.modHart h fun t => { t with mode := .machine, mcause := c, mepc := pc, mtval := tval }
  let s := dropMember (s.send (.memberStatus (h / 4) .faultHalt)) (h / 4)
  s.record 0x0002 0 h (leBytes 2 h ++ leBytes 8 c.toNat ++ leBytes 8 pc.toNat ++ leBytes 8 tval.toNat)

/-- The hart can execute: its core is not fallow and it does not hold. -/
def hartRuns (s : State) (h : Nat) : Bool := !s.coreFallow (h / 4) && (s.hart h).hold == .running

/-- A hart's command: nothing while the hart holds or its core is fallow. DESIGN CHOICE: log entry 10. -/
def onHart (s : State) (h : Nat) (t : State) : State := if hartRuns s h then t else s

/-- R141, R142: a funct7 pattern not shown, or a reserved field: mtval holds the encoding. -/
def illegal (s : State) (h : Nat) (w : Xkvl) (funct3 : BitVec 3) : State :=
  trap s h .illegal ((xkvlWord w funct3).setWidth 64)

/-- R139: the control and status registers that the rules name, as they read: fcsr, misa (with the X bit), mepc, mcause,
mtval, time (the Polestar value) and mhartid. No row of the table runs a base instruction, so no command reads one.
PRESUMED: log entry 116. -/
def hartCsr (s : State) (h n : Nat) : Option DWord :=
  let t := s.hart h
  match n with
  | 0x003 => some (t.fcsr.setWidth 64)
  | 0x301 => some (BitVec.ofNat 64 (2 * 2^62 + 2^23 + 2^20 + 2^12 + 2^8 + 2^5 + 2^3 + 2^2 + 1))
  | 0x341 => some t.mepc
  | 0x342 => some t.mcause
  | 0x343 => some t.mtval
  | 0xC01 => some (BitVec.ofNat 64 s.pst.now)
  | 0xF14 => some (BitVec.ofNat 64 h)
  | _ => none

/-! ### Physical memory protection (R139, R141) -/

/-- The right that an access needs. -/
inductive Access where
  | read | write | exec
  deriving DecidableEq, Repr

def pmpAllows (e : PmpEntry) : Access → Bool
  | .read => e.r
  | .write => e.w
  | .exec => e.x

/-- R141: may a hart make an access: in machine mode always, in user mode where the first entry that holds a byte of it
holds all of it and gives the right. PRESUMED: log entry 27. -/
def pmpOk (t : HartSt) (addr n : Nat) (a : Access) : Bool :=
  t.mode == .machine ||
    match t.pmp.find? fun e => decide (e.lo < addr + n) && decide (addr < e.hi) with
    | some e => decide (e.lo ≤ addr) && decide (addr + n ≤ e.hi) && pmpAllows e a
    | none => false

/-! ### Tally references (R143, R145) -/

/-- Does the reference act on another module. -/
def refRemote (s : State) (r : DWord) : Bool := bit r.toNat 26 && decide (s.ownId ≠ some (bits r.toNat 25 14))

/-- A reference that Xkvl cannot act on; `join` permits the join add of R344. -/
def refBad (s : State) (r : DWord) (join : Bool) : Bool :=
  let v := r.toNat
  let t := v % 2^14
  decide (v ≥ 2^27) || (!bit v 26 && bits v 25 14 != 0)
  || (refRemote s r && !s.inJob (bits v 25 14))
  || (!refRemote s r && s.clusterFallow (t / 1024))
  || (isJoinTally t && !join)

/-- R344: the join itself, a local add of 1 to the hart's own core's join tally. -/
def isJoin (h : Nat) (rs1 rs2 : DWord) : Bool :=
  decide (rs1.toNat = 1024 * (h / 32) + 1016 + h / 4 % 8) && decide (rs2.toNat % 2^32 = 1)

/-- R142: ORD is [6:5] of funct7, SCOPE [4:2], and [1:0] is 0. -/
def tlyIllegal (w : Xkvl) : Bool :=
  decide (bits w.f7.toNat 6 5 ≥ 2) || decide (bits w.f7.toNat 4 2 ≥ 5) || bits w.f7.toNat 1 0 != 0

/-- A remote operation leaves, or is lost when its target is fenced (R191, R192). -/
def sendTally (s : State) (h m : Nat) (op : RemoteOp) (t : Nat) (v : Word) : State :=
  if s.fenced.contains m then s.incReg .tlyRemoteLost (h / 32) else s.send (.remoteTally m op t v h)

/-- ADD and SET: the previous value returns, 0 toward another module. -/
def tlyWrite (s : State) (h : Nat) (w : Xkvl) (rs1 rs2 : DWord) (set : Bool) : State :=
  if tlyIllegal w then illegal s h w (if set then 1 else 0)
  else if refBad s rs1 (!set && isJoin h rs1 rs2) then trap s h .storeAccess rs1
  else
    let t := rs1.toNat % 2^14
    let v : Word := rs2.setWidth 32
    if refRemote s rs1 then
      hartGo (sendTally s h (bits rs1.toNat 25 14) (if set then .set else .add) t v) h w.rd 0
    else
      let old := s.tally t
      hartGo (s.setTally t (if set then v else old + v)) h w.rd (old.setWidth 64)

/-- R188: TLY.ADD. -/
def execTlyAdd (h : Hart) (w : Xkvl) (rs1 rs2 : DWord) (s : State) : Host.Outcome State Fault Refusal :=
  powered s (onHart s h (tlyWrite s h w rs1 rs2 false))
/-- R188: TLY.SET. -/
def execTlySet (h : Hart) (w : Xkvl) (rs1 rs2 : DWord) (s : State) : Host.Outcome State Fault Refusal :=
  powered s (onHart s h (tlyWrite s h w rs1 rs2 true))

/-- WAIT: an unsatisfied one holds its hart, with a watch entry or polling (R189, R193). DEDUCED: log entry 31. -/
def tlyWaitOn (s : State) (h : Nat) (w : Xkvl) (rs1 rs2 : DWord) : State :=
  if tlyIllegal w then illegal s h w 2
  else if refBad s rs1 false then trap s h .loadAccess rs1
  else
    let t := rs1.toNat % 2^14
    let v : Word := rs2.setWidth 32
    if refRemote s rs1 then
      let m := bits rs1.toNat 25 14
      if s.fenced.contains m then trap s h .loadAccess rs1
      else
        let s := { s with waits := s.waits ++ [TallyWait.mk h t v w.rd rs1 true none (some m)] }
        (s.modHart h fun x => { x with hold := .tally }).send (.remoteTally m .wait t v h)
    else if State.atLeast (s.tally t) v then hartGo s h w.rd ((s.tally t).setWidth 64)
    else
      let watch := decide (s.watchUsed (t / 1024) < 256)
      let s := if watch then s else s.incReg .tlyPollwait (t / 1024)
      let s := { s with waits := s.waits ++ [TallyWait.mk h t v w.rd rs1 watch none none] }
      s.modHart h fun x => { x with hold := .tally }

/-- R189: TLY.WAIT. -/
def execTlyWait (h : Hart) (w : Xkvl) (rs1 rs2 : DWord) (s : State) : Host.Outcome State Fault Refusal :=
  powered s (onHart s h (tlyWaitOn s h w rs1 rs2))

/-- R188: POLL answers 1 or 0; another module's answer is free. -/
def tlyPollOn (s : State) (h : Nat) (w : Xkvl) (rs1 rs2 : DWord) : State :=
  if tlyIllegal w then illegal s h w 3
  else if refBad s rs1 false then trap s h .loadAccess rs1
  else
    let t := rs1.toNat % 2^14
    let v : Word := rs2.setWidth 32
    if refRemote s rs1 then
      let m := bits rs1.toNat 25 14
      if s.fenced.contains m then trap s h .loadAccess rs1
      else
        let (a, s) := s.draw
        hartGo (s.send (.remoteTally m .poll t v h)) h w.rd (BitVec.ofNat 64 (a.toNat % 2))
    else hartGo s h w.rd (if State.atLeast (s.tally t) v then 1 else 0)

def execTlyPoll (h : Hart) (w : Xkvl) (rs1 rs2 : DWord) (s : State) : Host.Outcome State Fault Refusal :=
  powered s (onHart s h (tlyPollOn s h w rs1 rs2))

/-- A wait ends: its hart goes on with the value. -/
def waitDone (s : State) (w : TallyWait) (v : Word) : State :=
  hartGo { s with waits := s.waits.filter fun x => decide (x.hart ≠ w.hart) } w.hart w.rd (v.setWidth 64)

/-- R190, R191: a satisfied wait resumes its hart with the value that satisfied it; a remote one with what the target
reports. R194: a remote one that a CLEAR at its target refuses (no value reported) ends with the load access fault. -/
def execTlyWaitSatisfied (h : Hart) (reported : Option Word) (s : State) : Host.Outcome State Fault Refusal :=
  powered s <|
    match s.waits.find? fun w => w.hart = h.val with
    | none => s
    | some w =>
      match w.remote, w.got with
      | some _, _ => (match reported with
        | some v => if State.atLeast v w.threshold then waitDone s w v else s
        | none => trap { s with waits := s.waits.filter fun x => decide (x.hart ≠ h.val) } h .loadAccess w.ref)
      | none, some v => waitDone s w v
      | none, none => s

/-- R193: the polling wait of a hart of the module looks at its tally. -/
def pollHart (s : State) (h : Nat) : State :=
  match s.waits.find? fun w => w.hart = h with
  | none => s
  | some w => if w.watch ∨ State.atLeast (s.tally w.tally) w.threshold = false then s else waitDone s w (s.tally w.tally)

/-- R193: the polling wait of another module's hart looks at its tally: once satisfied, it is reported. -/
def pollPeer (s : State) (src tag : Nat) : State :=
  let is := fun (w : RemoteWatch) => decide (w.src = src) && decide (w.tag = tag) && w.polled
  match s.watches.find? is with
  | none => s
  | some w =>
    if State.atLeast (s.tally w.tally) w.threshold then
      { s with watches := s.watches.filter fun x => !is x }.send (.tallyReport src tag (s.tally w.tally))
    else s

/-- R193: a poll, once every 1 µs. -/
def execTallyPollTick (p : Poller) (s : State) : Host.Outcome State Fault Refusal :=
  powered s <| match p with
    | .hart h => pollHart s h
    | .peer src tag => pollPeer s src.toNat tag

/-- R191 to R193: an operation from another module. -/
def remoteArrive (s : State) (src : Nat) (op : RemoteOp) (t : Nat) (v : Word) (tag : Nat) : State :=
  if s.fenced.contains src then s.incReg .tlyRemoteDiscard (t / 1024)
  else
    match op with
    | .add => s.setTally t (s.tally t + v)
    | .set => s.setTally t v
    | .poll => s.send (.tallyReport src tag (if State.atLeast (s.tally t) v then 1 else 0))
    | .wait =>
      if State.atLeast (s.tally t) v then s.send (.tallyReport src tag (s.tally t))
      else
        let full := decide (s.watchUsed (t / 1024) ≥ 256)
        let s := if full then s.incReg .tlyPollwait (t / 1024) else s
        { s with watches := s.watches ++ [RemoteWatch.mk src t v tag full] }

def execRemoteTallyArrive (src : ModuleId) (op : RemoteOp) (tally : BitVec 14) (val : Word) (tag : Nat) (s : State) :
    Host.Outcome State Fault Refusal := powered s (remoteArrive s src.toNat op tally.toNat val tag)

/-- R194: TLY_CTRL.CLEAR: every tally is set to 0, every watch entry is freed, and each outstanding wait is satisfied by 0
or ends with a load access fault. -/
def tlyClear (s : State) (c : Nat) (val : Nat := 1) : State :=
  if s.jobOwns c then s.recordReg .tlyCtrl c [] val
  else
    let mine := fun (t : Nat) => decide (t / 1024 = c)
    let ws := s.waits.filter fun w => mine w.tally && w.remote.isNone
    let rs := s.watches.filter fun w => mine w.tally
    let s := { s with
      tallies := s.tallies.filter fun p => !mine p.1
      waits := s.waits.filter fun w => !(mine w.tally && w.remote.isNone)
      watches := s.watches.filter fun w => !mine w.tally }
    let s := rs.foldl (fun s w => if State.atLeast 0 w.threshold then s.send (.tallyReport w.src w.tag 0)
      else s.send (.watchRefused w.src w.tag)) s
    ws.foldl (fun s w =>
      if (s.hart w.hart).hold ≠ .tally then s
      else if w.got.isSome ∨ State.atLeast 0 w.threshold = true then hartGo s w.hart w.rd ((w.got.getD 0).setWidth 64)
      else trap s w.hart .loadAccess w.ref) s

def execTlyClear (c : ClusterIx) (s : State) : Host.Outcome State Fault Refusal := powered s (tlyClear s c)

/-- R194: a write of TLY_VALUE is a relaxed SET. -/
def execTlyValueWrite (t : BitVec 14) (val : Word) (s : State) : Host.Outcome State Fault Refusal :=
  powered s (s.setTally t.toNat val)

/-! ### Fences (R183, R186) -/

/-- R183: a fence. In this model every command is performed whole before the next, so a fence has only to be legal. -/
def kfence (s : State) (h : Nat) (w : Xkvl) : State :=
  let f := w.f7.toNat
  if bits f 1 0 = 0 ∨ bits f 4 2 ≥ 5 ∨ bits f 6 5 ≠ 0 then illegal s h w 4 else hartGo s h 0 0

def execKfence (h : Hart) (w : Xkvl) (s : State) : Host.Outcome State Fault Refusal :=
  powered s (onHart s h (kfence s h w))

/-- R186: FENCE and FENCE.TSO are full fences at CORE scope. -/
def execRiscvFence (h : Hart) (_tso : Bool) (s : State) : Host.Outcome State Fault Refusal :=
  powered s (onHart s h (hartGo s h 0 0))

/-! ### Private memory and the scratchpad -/

/-- The private data memory of a hart (R140). -/
def dmemBase : Nat := 0xFF00000000010000
def imemBase : Nat := 0xFF00000000000000

/-- Bytes at an address of the hart's private data memory or of its core's scratchpad, none elsewhere or where the PMP
keeps the hart off (R141). -/
def hartBytes (s : State) (h addr n : Nat) : Option (List Byte) :=
  if !pmpOk (s.hart h) addr n .read then none
  else if dmemBase ≤ addr ∧ addr + n ≤ dmemBase + 65536 then some (Memory.read 0 (s.hart h).dmem (addr - dmemBase) n)
  else
    let a := if s.ownId = some (addr / 2^44) ∧ addr < 2^56 then addr % 2^44 else addr
    let lo := scratchAddr (h / 4) 0
    if lo ≤ a ∧ a + n ≤ lo + 2^23 then some (s.bytes a n) else none

/-! ### KQ.PUSH (R144) -/

/-- A push into one queue, or the hart stalls. -/
def pushDesc (s : State) (h target rd : Nat) (desc : List Byte) : State :=
  let k := h / 4
  let u := target - 4
  let stall := fun (s : State) => s.modHart h fun x => { x with hold := .push }
  let w : PushWait := ⟨h, desc, rd⟩
  if target = 0 then
    if (s.mxe k).queue.length < 8 ∧ (s.mxe k).waiters = [] then
      let (s, q) := mxeEnqueue s k desc
      hartGo s h rd (q.setWidth 64)
    else stall (s.modMxe k fun m => { m with waiters := m.waiters ++ [w] })
  else if target = 1 then
    if (s.vxe k).queue.length < 8 ∧ (s.vxe k).waiters = [] then
      let (s, q) := vxeEnqueue s k desc
      hartGo s h rd (q.setWidth 64)
    else stall (s.modVxe k fun m => { m with waiters := m.waiters ++ [w] })
  else if (s.str k u).queue.length < 16 ∧ (s.str k u).waiters = [] then
    let (s, q) := strEnqueue s k u desc
    hartGo s h rd (q.setWidth 64)
  else stall (s.modStr k u fun m => { m with waiters := m.waiters ++ [w] })

/-- R144: TARGET is [2:0] of funct7, and [6:3] is 0. -/
def kqPush (s : State) (h : Nat) (w : Xkvl) (rs1 : DWord) : State :=
  let target := w.f7.toNat
  let size := if target ≥ 4 then 64 else 32
  if target = 2 ∨ target = 3 ∨ target ≥ 8 then illegal s h w 5
  else if target = 0 ∧ h % 4 ≠ 0 then trap s h .storeAccess rs1
  else if rs1.toNat % size ≠ 0 then trap s h .storeAccess rs1
  else match hartBytes s h rs1.toNat size with
    | none => trap s h .storeAccess rs1
    | some b => pushDesc s h target w.rd b

def execKqPush (h : Hart) (w : Xkvl) (rs1 : DWord) (s : State) : Host.Outcome State Fault Refusal :=
  powered s (onHart s h (kqPush s h w rs1))

/-! ### STR.REARM and STR.RESUME (R163 to R165) -/

/-- A unit named by [1:0] of funct7, with [6:2] 0. -/
def strRearm (s : State) (h : Nat) (w : Xkvl) (rs1 rs2 : DWord) : State :=
  let k := h / 4
  let u := w.f7.toNat
  let rd := w.rd.val
  if u ≥ 4 then illegal s h w 6
  else match (if rs2.toNat % 32 = 0 then hartBytes s h rs2.toNat 32 else none) with
  | none => trap s h .storeAccess rs1
  | some base =>
    let i := (s.str k u).pers.findIdx fun e => match e with
      | some e => decide (e.seq.toNat = rs1.toNat)
      | none => false
    match (s.str k u).pers.getD i none with
    | none => hartGo (rearmIgnored s k rs2 rs1) h rd 0
    | some e =>
      if fieldAt base 16 4 ≥ 2 ∨ zeroAt base 20 12 = false then hartGo (rearmIgnored s k rs2 rs1) h rd 0
      else if e.rearm.isSome then s.modHart h fun x => { x with hold := .rearm u i rd base rs2 rs1 }
      else if rearmReady s k u e base then strAfter 2 (hartGo (rearmNow s k u i e base) h rd 0) k u
      else
        hartGo (s.modStr k u fun x => { x with pers := modAt (fun _ => some { e with rearm := some base }) i x.pers }) h rd 0

def execStrRearm (h : Hart) (w : Xkvl) (rs1 rs2 : DWord) (s : State) : Host.Outcome State Fault Refusal :=
  powered s (onHart s h (strRearm s h w rs1 rs2))

/-- STR.RESUME acts on the token of a halted slot; every other one is ignored and recorded. -/
def strResume (s : State) (h : Nat) (w : Xkvl) (rs1 : DWord) : State :=
  let k := h / 4
  let u := w.f7.toNat
  if u ≥ 4 then illegal s h w 7 else
  let s' := match (if rs1.toNat < 2^23 ∧ rs1.toNat % 64 = 0 then haltedAt s k u rs1.toNat else none) with
    | some i => strUnhalt s k u i false
    | none => s.recordReg .strResume k [u] rs1.toNat
  hartGo s' h w.rd 0

def execStrResume (h : Hart) (w : Xkvl) (rs1 : DWord) (s : State) : Host.Outcome State Fault Refusal :=
  powered s (onHart s h (strResume s h w rs1))

end Sys2Proof.Machine
end

