-- ==== Sys2Proof/Machine/Power.lean ====
section
/-! DEFINITION. The 40 V input, the rails, the ACLK steps and their four requests (R516 to R529). -/

namespace Sys2Proof.Machine

/-! ### OFF (R478, R517, R518) -/

/-- What a loss of the die rails leaves: the non-volatile memories, the fuses, the input's telemetry, and the model's own
fields. Everything else returns to its reset contents. DEDUCED: log entry 104. -/
def cold (s : State) : State :=
  { pending := s.pending
    out := s.out
    freeCtr := s.freeCtr
    alm := { mram := s.alm.mram }
    power := { vin := s.power.vin, moduleEn := s.power.moduleEn }
    mgt := {}
    dev := { serial := s.dev.serial, fuseSvn := s.dev.fuseSvn, key0Revoked := s.dev.key0Revoked,
             flashA := s.dev.flashA, flashB := s.dev.flashB, starts := s.dev.starts } }

/-- The die rails are off: the device is OFF and the Almanac pins own the MRAM. DEDUCED: log entry 104. -/
def railsOff (s : State) : State :=
  let c := cold s
  { c with
    dev := { c.dev with mode := .off }
    power := { c.power with railsGood := false, pwrGood := false }
    alm := { c.alm with dieOwns := false } }

/-- R404: the module reports its own failure. -/
def reportFailure (s : State) : State := s.send .ownFailure

/-! ### The input (R517, R528, R529) -/

/-- Beyond the absolute maximum ratings of the 40 V input. DESIGN CHOICE: log entry 16. -/
def beyondVin (mv : Int) : Bool := decide (mv < -500) || decide (mv > 50000)

/-- R511, R517: the report of input failure: PWR_GOOD falls, one POWER_LOSS record and slots 6 and 7 are written, and
nothing more; above 44 V the rails switch off at once. -/
def inputFailure (s : State) (mv : Int) : State :=
  let s := { s with power := { s.power with vin := mv } }
  if s.power.inputFail ∨ (36000 ≤ mv ∧ mv ≤ 44000) then s
  else
    let above := decide (mv > 44000)
    let s := { s with power := { s.power with inputFail := true, pwrGood := false, failAt := s.pst.up,
                                              overVoltage := above } }
    let s := s.record 0x0050 0x12 0 (leBytes 1 (min 255 (mv.toNat / 250)))
    let s := writeStarts { s with alm := { s.alm with lossTime := BitVec.ofNat 64 s.pst.now } }
    let s := { s with alm := { s.alm with stopped := true } }
    if above then railsOff s else s

/-- DESIGN CHOICE: log entry 16. -/
def execInputFailure (mv : Int) (s : State) : Host.Outcome State Fault Refusal :=
  if beyondVin mv then .fault .beyondRatings else powered s (inputFailure s mv)

/-- R517: after a report of input failure the rails switch off. -/
def execRailSwitchOff (s : State) : Host.Outcome State Fault Refusal :=
  powered s (if s.power.inputFail then railsOff s else s)

/-- R529: the warnings follow the input; each rising edge counts. -/
def regulatorWarning (s : State) (mv : Int) (oc phase : Bool) : State :=
  let vw := decide (mv < 38000) || decide (mv > 42000)
  let p := s.power
  let n := (vw && !p.vinWarn).toNat + (oc && !p.ocWarn).toNat + (phase && !p.phaseFault).toNat
  let s := { s with power := { p with vin := mv, vinWarn := vw, ocWarn := oc, phaseFault := phase } }
  if n = 0 then s
  else
    let old := s.nwt.warnTimes.filter fun x => decide (s.pst.now < x + 600 * 10^9)
    { s with nwt := { s.nwt with warnTimes := old ++ List.replicate n s.pst.now } }.incReg .pwrWarn 0 [] n

def execRegulatorWarning (mv : Int) (oc phase : Bool) (s : State) : Host.Outcome State Fault Refusal :=
  if beyondVin mv then .fault .beyondRatings else powered s (regulatorWarning s mv oc phase)

/-- R404: a regulator trip makes the module report its own failure. -/
def execRegulatorTrip (s : State) : Host.Outcome State Fault Refusal := powered s (reportFailure s)

/-- R404, R141: a trap in resident firmware is recorded and makes the module report its own failure. -/
def execFirmwareTrap (core : UnitIx) (mcause mepc mtval : DWord) (s : State) : Host.Outcome State Fault Refusal :=
  powered s (reportFailure (s.record 0x0002 0 (512 + core)
    (leBytes 2 (512 + core) ++ leBytes 8 mcause.toNat ++ leBytes 8 mepc.toNat ++ leBytes 8 mtval.toNat)))

/-! ### ACLK steps (R520, R521) -/

def aclkCfg (s : State) (c : Nat) : Nat := s.fld .pwrAclk 0 [c] 2 0

/-- The effective step: the highest-numbered of the four requests. -/
def effStep (s : State) (c : Nat) : Nat :=
  let a := s.aclkOf c
  max (max (aclkCfg s c) a.dram) (max a.logic a.cap)

/-- The factory frequencies of the steps (R520). -/
def factoryMhz : List Nat := [2700, 2400, 2100, 1800, 1500, 1200, 900, 500]

/-- The frequency of a step: calibration point 7 − step of the cluster (R483), the factory's without a calibration. -/
def stepMhz (s : State) (c k : Nat) : Nat :=
  if s.dev.cal = [] then factoryMhz.getD k 0 else fieldAt s.dev.cal (64 + 32 * c + 4 * (7 - k) + 2) 2

/-- The factory voltages of the steps, in millivolts (R520). -/
def factoryMv : List Nat := [950, 900, 850, 800, 750, 700, 650, 600]

/-- The voltage of a step: the other half of the same calibration point. -/
def stepMv (s : State) (c k : Nat) : Nat :=
  if s.dev.cal = [] then factoryMv.getD k 0 else fieldAt s.dev.cal (64 + 32 * c + 4 * (7 - k)) 2

/-- R520: a step's power factor, as a numerator over 2,700 MHz by 950 mV squared. -/
def powerFactor (s : State) (c k : Nat) : Nat × Nat := (stepMhz s c k * stepMv s c k ^ 2, 2700 * 950 ^ 2)

/-- R520: a cluster's matrix rate at a step in units of 10^9 operations per second: 0.708 PFLOP/s at 2,700 MHz. -/
def matrixRate (s : State) (c k : Nat) : Nat × Nat := (708000 * stepMhz s c k, 2700)

def effMhz (s : State) (c : Nat) : Nat := stepMhz s c (effStep s c)

/-- R521: one step toward the effective step. -/
def execAclkStep (c : ClusterIx) (s : State) : Host.Outcome State Fault Refusal :=
  powered s (s.modAclk c fun a =>
    { a with run := if a.run < effStep s c then a.run + 1 else if a.run > effStep s c then a.run - 1 else a.run })

/-- A write of PWR_ACLK_c.CFG. -/
def aclkCfgWrite (s : State) (c : Nat) (v : Word) : State := s.setFld .pwrAclk 0 [c] 2 0 (v.toNat % 8)

def execPwrAclkCfgWrite (c : ClusterIx) (val : Word) (s : State) : Host.Outcome State Fault Refusal :=
  powered s (aclkCfgWrite s c val)

/-! ### Die temperatures (R523, R524) -/

/-- The clusters that share a grid edge with a cluster (R11). -/
def neighbours (c : Nat) : List Nat :=
  (if c ≥ 4 then [c - 4] else []) ++ (if c % 4 ≠ 0 then [c - 1] else [])
  ++ (if c % 4 ≠ 3 then [c + 1] else []) ++ (if c < 12 then [c + 4] else [])

def maxOpt (l : List (Option Int)) : Option Int :=
  l.foldl (fun m x => match m, x with
    | none, x => x
    | some a, some b => some (if a < b then b else a)
    | some a, none => some a) none

/-- A cluster's reading, or the substitute while its sensor is invalid. -/
def dieReading (s : State) (c : Nat) : Option Int :=
  match (s.aclkOf c).temp with
  | some t => some t
  | none => (maxOpt ((neighbours c).map fun n => (s.aclkOf n).temp)).map (· + 80)

/-- A signed 2-byte calibration offset (R483). DEDUCED: log entry 46. -/
def calOffset (s : State) (off : Nat) : Int := toInt 16 (fieldAt s.dev.cal off 2)

def sensorValid (t : Int) : Bool := decide (-640 ≤ t) && decide (t ≤ 2400)

/-- R523: the LOGIC request follows the readings: a rise at the first sample at or above 100 °C and at each tenth after
it, a fall at each hundredth below 95 °C; held at step 7 when no reading is to be had. DEDUCED: log entry 47. -/
def logicStep (a : Aclk) : Option Int → Aclk
  | none => { a with logic := 7, hotFor := 0, coolFor := 0 }
  | some t =>
    if t ≥ 1600 then
      { a with logic := if a.hotFor % 10 = 0 then min 7 (a.logic + 1) else a.logic, hotFor := a.hotFor + 1, coolFor := 0 }
    else if t < 1520 then
      let n := a.coolFor + 1
      if n ≥ 100 then { a with logic := a.logic - 1, hotFor := 0, coolFor := 0 }
      else { a with hotFor := 0, coolFor := n }
    else { a with hotFor := 0, coolFor := 0 }

def validDies (s : State) : Nat := ((List.range 16).filter fun c => (s.aclkOf c).temp.isSome).length

/-- An INTERNAL record with the detail that a rule states; the rest of its data is free. -/
def internalDetail (s : State) (block unit detail : Nat) : State :=
  { s with freeCtr := s.freeCtr + 1, dev := { s.dev with internal := true } }.record 0x007F block unit
    (leBytes 1 detail ++ (s.freeData.drop 1))

/-- R523, R524: a sample of a cluster's die sensor. DEDUCED: log entry 47. -/
def dieSample (s : State) (c : Nat) (reading : Option Int) : State :=
  let r := reading.map (· + calOffset s (16960 + 128 + 2 * c))
  let ok := match r with
    | some t => sensorValid t
    | none => false
  let was := (s.aclkOf c).temp.isSome
  let before := validDies s
  let s := s.modAclk c fun a => { a with temp := if ok then r else none, lastGood := if ok then r else a.lastGood }
  let s := if was && !ok then
      s.record 0x0070 0x12 c (leBytes 1 0 ++ leBytes 1 0x32 ++
        leBytes 2 (match r with
          | some t => ofInt 16 t
          | none => 0x8000))
    else s
  let s := if before ≥ 8 ∧ validDies s < 8 then internalDetail (reportFailure s) 0x12 0 0x31 else s
  let t := dieReading s c
  let s := s.modAclk c fun a => logicStep a t
  let hot := match t with
    | some t => decide (t ≥ 1840)
    | none => false
  if hot && s.power.shutdownAt.isNone then
    let s := internalDetail (reportFailure s) 0x12 c 0x30
    { s with power := { s.power with shutdownAt := some s.pst.up } }
  else s

def execDieTempSample (c : ClusterIx) (reading : Option Int) (s : State) : Host.Outcome State Fault Refusal :=
  powered s (dieSample s c reading)

/-- R523: 10 ms after the reading, the rails switch off until MODULE_EN is cycled. -/
def execThermalShutdown (s : State) : Host.Outcome State Fault Refusal :=
  powered s <|
    match s.power.shutdownAt with
    | some t =>
      if s.pst.up ≥ t + 10000000 then railsOff s else s
    | none => s

/-! ### The cap (R522) -/

/-- The cap in effect: a value outside 4,000 to 8,000 W acts as the nearer limit. -/
def capWatts (s : State) : Nat := max 4000 (min 8000 (s.fld .pwrCap 0 [] 15 0))

/-- A reading for the ties: a cluster without any reading or substitute stands last. -/
def tieTemp (s : State) (c : Nat) : Int := (dieReading s c).getD (-100000)

/-- The better of two clusters under an order. DEDUCED: log entry 48. -/
def pickBy (better : Nat → Nat → Bool) (l : List Nat) : Option Nat :=
  l.foldl (fun (b : Option Nat) c => match b with
    | none => some c
    | some b => some (if better c b then c else b)) none

/-- R522: one sample of the cap controller, every 1 ms. DEDUCED: log entry 48. -/
def capTick (s : State) (watts ca : Nat) : State :=
  let s := { s with power := { s.power with pin := watts, iin := ca } }
  let cap := capWatts s
  if watts > cap then
    let s := { s with power := { s.power with capTicks := 0 } }
    match pickBy (fun a b => decide (effMhz s a > effMhz s b)
        || (decide (effMhz s a = effMhz s b) && decide (tieTemp s a > tieTemp s b)))
        ((List.range 16).filter fun c => (s.aclkOf c).cap < 7) with
    | some c => (s.modAclk c fun a => { a with cap := a.cap + 1 }).incReg .pwrCapSteps
    | none => s
  else if watts + 250 ≤ cap then
    if s.power.capTicks + 1 < 10 then { s with power := { s.power with capTicks := s.power.capTicks + 1 } }
    else
      let s := { s with power := { s.power with capTicks := 0 } }
      match pickBy (fun a b => decide (effMhz s a < effMhz s b)
          || (decide (effMhz s a = effMhz s b) && decide (tieTemp s a ≤ tieTemp s b)))
          ((List.range 16).filter fun c => (s.aclkOf c).cap > 0) with
      | some c => (s.modAclk c fun a => { a with cap := a.cap - 1 }).incReg .pwrCapSteps
      | none => s
  else { s with power := { s.power with capTicks := 0 } }

def execCapTick (watts ca : Nat) (s : State) : Host.Outcome State Fault Refusal := powered s (capTick s watts ca)

end Sys2Proof.Machine
end

