-- ==== Sys2Proof/Machine/Stacks.lean ====
section
/-! DEFINITION. The bonded DRAM stacks: scrubbing, page retirement, channels mapped out and fenced, and heat
(R199 to R227). -/

namespace Sys2Proof.Machine

/-! ### Refresh and scrub (R200, R204, R208) -/

/-- A channel that sends to its DRAM: live, not fenced, its stack online. -/
def chanRuns (s : State) (ch : Nat) : Bool :=
  s.dram.live.contains ch && !(s.chan ch).fenced && !(s.stack (ch / 16)).offline

/-- The data bytes of a line with some of their bits changed. -/
def alterLine (s : State) (key : Nat) (l : SymErrs) : State :=
  match s.dramEncode (key / 2^25) (key % 2^25 * 64) with
  | some a =>
    if l.isEmpty then s
    else s.store a ((s.bytes a 64).mapIdx fun i b => b ^^^ gfSum ((l.filter fun e => e.1 = i).map Prod.snd))
  | none => s

/-- What is known of a line's symbols: whether it reads uncorrectable, and the erroneous ones. -/
def setErrs (s : State) (key : Nat) (bad : Bool) (l : SymErrs) : State :=
  { s with dram := { s.dram with
    bad := if bad then nsInsert key s.dram.bad else nsErase key s.dram.bad
    errs := if l.isEmpty then SMap.del s.dram.errs key else SMap.set s.dram.errs key l } }

/-- R204: more symbols of a line are upset. What the code corrects is what the next read corrects; an error that it does
not see, or corrects wrongly, changes the line's data. -/
def upset (ch : Nat) (s : State) (e : Nat × SymErrs) : State :=
  let key := ch * 2^25 + e.1
  let p := symErrs (SMap.get [] s.dram.errs key ++ e.2)
  if symErrs e.2 = [] ∨ (s.dram.bad.contains key = true ∧ SMap.find s.dram.errs key = none) then s
  else match rsDecode p with
    | none => setErrs s key true p
    | some fix => setErrs (alterLine s key (symErrs (p ++ fix))) key false fix

/-- R200: one bank refreshed; in self-refresh the channel's DRAM does it itself. The operand names the lines whose symbols
have been upset since the refresh before, and how. DESIGN CHOICE: log entry 120. -/
def execRefresh (ch : ChannelIx) (upsets : List (Nat × SymErrs)) (s : State) : Host.Outcome State Fault Refusal :=
  powered s (if s.dram.live.contains ch.val then
    let s := upsets.foldl (upset ch) s
    if chanRuns s ch && (s.stack (ch.val / 16)).level != .critical then
      s.modChan ch fun c => { c with refreshed := c.refreshed + 1 } else s
    else s)

/-! ### Retirement (R209 to R215) -/

def retireBase (st : Nat) : Nat := 0x5100000 + 65536 * st
/-- Is a slot of a stack's list used in either copy. -/
def retireUsed (s : State) (st i : Nat) : Bool :=
  let a := retireBase st + 16 * i
  !((Memory.read 0xFF s.dev.flashA a 16).all (· = 0xFF) && (Memory.read 0xFF s.dev.flashA (a + 2^20) 16).all (· = 0xFF))

/-- Used slots of a list, found through the flash's cells. -/
def retireListed (s : State) (st : Nat) : Nat :=
  let slots := (s.dev.flashA.filterMap fun c =>
    let o := c.1 - 0x5100000
    if c.1 ≥ 0x5100000 ∧ o < 2^21 ∧ o % 2^20 / 65536 = st then some (o % 65536 / 16) else none).eraseDups
  slots.length

def firstErased (s : State) (st : Nat) : Nat → Nat → Option Nat
  | 0, _ => none
  | n + 1, i => if retireUsed s st i then firstErased s st n (i + 1) else some i

/-- NOR programming: bits only fall. -/
def program (m : Memory) (a : Nat) (b : List Byte) : Memory :=
  Memory.write 0xFF m a (b.mapIdx fun i v => v &&& Memory.get 0xFF m (a + i))

/-- The entry of R212, with the second in which the line failed. -/
def retireEntry (ch kind line second : Nat) : List Byte :=
  let l := leBytes 1 ch ++ leBytes 1 kind ++ leBytes 2 0 ++ leBytes 4 line ++ leBytes 4 second
  l ++ leBytes 4 (crc32c l)

/-- R215: a stack whose list is full is DEGRADED, and a record says so once. -/
def markDegraded (s : State) (st : Nat) : State :=
  if (s.stack st).degraded || (firstErased s st 4096 0).isSome then s
  else (s.modStack st fun x => { x with degraded := true }).record 0x0011 7 st (leBytes 1 st)

/-- R209 step 4, R213, R215: the entry is appended to both copies, or held in memory when the list is full. -/
def appendRetire (s : State) (ch kind line second : Nat) : State :=
  let st := ch / 16
  let e := retireEntry ch kind line second
  match firstErased s st 4096 0 with
  | some i =>
    let a := retireBase st + 16 * i
    let f := program (program s.dev.flashA a e) (a + 2^20) e
    markDegraded ({ s with dev := { s.dev with flashA := f } }.record 0x0010 7 st (e ++ [1])) st
  | none =>
    let s := markDegraded s st
    (s.modStack st fun x => { x with heldRet := x.heldRet + 1 }).record 0x0010 7 st (e ++ [0])

/-- Has a compacted page a granule on a channel. -/
def pageOnChannel (s : State) (page ch : Nat) : Bool :=
  (List.range 32).any fun i => match s.dramDecode (page * 65536 + 2048 * i) with
    | some (c, _) => decide (c = ch)
    | none => false

/-- Every leaf entry below a table: its address, its value and its level. `n` levels remain. -/
def leavesBelow : Nat → State → Nat → Nat → List (Nat × Nat × Nat)
  | 0, _, _, _ => []
  | n + 1, s, l, t =>
    ((List.range (levelEntries l)).map fun i =>
      let a := t + 8 * i
      if a ≥ s.dramCap then []
      else
        let e := leNat (s.bytes a 8)
        if !bit e 0 then []
        else if bit e 1 then (if l ≥ 3 then [(a, e, l)] else [])
        else leavesBelow n s (l + 1) (bits e 55 12 * 4096)).flatten

/-- The leaf entries of every context that map a 64 KiB page of this module, alone (level 4) or among the 32 of a 2 MiB
page (level 3). -/
def mappers (s : State) (page : Nat) : List (Nat × Nat × Nat) :=
  let own := s.ownId.getD 0
  let roots := ((List.range 16).map fun c => (List.range 8).map fun x => xltRoot s c x).flatten.eraseDups
  ((roots.map fun r => leavesBelow 4 s 1 r).flatten).filter fun e =>
    let p := bits e.2.1 55 12 * 4096
    decide (p = own * 2^44 + (if e.2.2 = 4 then page else page / 32 * 32) * 65536)

/-- Every cached translation that leads to a page, removed (R159). -/
def forgetPage (s : State) (page : Nat) : State :=
  let lo := s.ownId.getD 0 * 2^44 + page * 65536
  { s with clusters := SMap.mapVals (fun _ c => { c with tlb := c.tlb.filter fun e =>
      let p := bits e.leaf.toNat 55 12 * 4096
      !(decide (p ≤ lo) && decide (lo < p + e.pages * 65536)) }) s.clusters }

/-- R209 step 2: the leaf entries that map a page are pointed at its copy, and its translations removed. A 2 MiB leaf is
split by a level-4 table at `table`, which maps the other 31 pages as before; without one it stays.
DESIGN CHOICE: log entry 121. -/
def repoint (s : State) (old new : Nat) (table : Option Nat) : State :=
  let own := s.ownId.getD 0 * 2^44
  let small := (mappers s old).filter fun e => e.2.2 = 4
  let large := (mappers s old).filter fun e => e.2.2 = 3
  let s := small.foldl (fun s e => writeEntry s e.1 (e.2.1 - (own + old * 65536) + (own + new * 65536))) s
  let s := match table, large with
    | some t, e0 :: _ =>
      let base := old / 32 * 32
      let s := (List.range 32).foldl (fun s i =>
        let p := if base + i = old then new else base + i
        writeEntry s (4096 * t + 8 * i) (own + p * 65536 + e0.2.1 % 8)) s
      large.foldl (fun (s : State) (e : Nat × Nat × Nat) => writeEntry s e.1 (4096 * t + 1)) s
    | _, _ => s
  let s := { s with tiering := { s.tiering with
    filled := s.tiering.filled.map fun (f : FilledPage) => if f.frame = old then { f with frame := new } else f } }
  forgetPage s old

/-- A page copied line by line, poison included; each line is read (R206, R208). -/
def copyPage (s : State) (old new : Nat) : State :=
  (List.range 1024).foldl (fun s i =>
    let a := old * 65536 + 64 * i
    let t := s.noteRead a
    t.writeLine (new * 65536 + 64 * i) (s.bytes a 64) (s.linePoison a)) s

/-- The window of R202 in which a page lies: 16 for SPREAD, else its stack. -/
def windowOf (s : State) (page : Nat) : Nat :=
  if page * 65536 < s.dram.live.length * s.dram.shareMib * 2^20 then 16
  else match s.dramDecode (page * 65536) with
    | some (ch, _) => ch / 16
    | none => 17

def needRefill (s : State) (page : Nat) : State :=
  { s with dram := { s.dram with refills := nsInsert page s.dram.refills } }

/-- R209 step 1: no allocation takes a page any more. -/
def stopAllocation (s : State) (page : Nat) : State :=
  { s with
    dram := { s.dram with retired := s.dram.retired ++ [(page, some s.pst.now)] }
    tiering := { s.tiering with frames := s.tiering.frames.filter (· ≠ page) } }

/-- R209 step 2: a mapped page is copied to a free page and its translations follow. -/
def movePage (s : State) (page : Nat) (copyTo table : Option Nat) : State :=
  match copyTo with
  | some new =>
    if windowOf s new = windowOf s page ∧ new * 65536 < s.dramCap ∧ pageRetired s new = false then
      repoint { copyPage s page new with tiering := { s.tiering with frames := s.tiering.frames.filter (· ≠ new) } }
        page new table
    else s
  | none => s

/-- R209: a page retired once, in its four steps; `kind` 2 is a repeated correction (R210), which asks for no refill. -/
def retirePage (s : State) (r : UeRep) (copyTo table : Option Nat) : State :=
  match s.dramEncode r.channel (r.line * 64) with
  | none => s
  | some a =>
    let page := a / 65536
    if pageRetired s page then s
    else
      let s := movePage (stopAllocation s page) page copyTo table
      let s := if r.kind = 1 then needRefill s (copyTo.getD page) else s
      appendRetire s r.channel r.kind r.line r.second

/-- R219, R224: a page retired under R209 steps 1 to 3 without an entry: a mapped page is rebuilt in a free page of any
window, or, where none is free, left to demand paging from the tier that its fill named. DEDUCED: log entry 122. -/
def rebuildPage (s : State) (page : Nat) : State :=
  let s := stopAllocation s page
  let ents := mappers s page
  if ents.isEmpty then needRefill s page
  else match s.tiering.frames.find? fun f => !pageRetired s f with
    | some new =>
      let s := { s with tiering := { s.tiering with frames := s.tiering.frames.filter (· ≠ new) } }
      needRefill (repoint (copyPage s page new) page new none) new
    | none =>
      let tier := match s.tiering.filled.find? fun f => f.frame = page with
        | some f => f.tier.toNat
        | none => 0
      let s := (ents.filter fun e => e.2.2 = 4).foldl (fun s e => writeEntry s e.1 tier) s
      let s := { s with tiering := { s.tiering with filled := s.tiering.filled.filter fun f => f.frame ≠ page } }
      needRefill (forgetPage s page) page

/-! ### Pending map-out (R216, R217) -/

/-- A channel is marked pending, once: the register's bit, the Almanac's mark, and a CHANNEL_PENDING record. -/
def markChannel (s : State) (ch cause : Nat) : State :=
  if (s.chan ch).pending then s
  else
    let s := s.modChan ch fun c => { c with pending := true }
    let s := setPend s { s.dev.pend with channels := s.dev.pend.channels ||| BitVec.ofNat 256 (2^ch) }
    s.record 0x0012 7 (ch / 16) (leBytes 1 ch ++ leBytes 1 cause)

/-- R206, R209, R210, R216, R220: resident firmware takes the oldest report. `copyTo` is the free page that it chose for a
page that a job maps, and `table` the 4 KiB page for a level-4 table where a 2 MiB page must be split. -/
def ueReport (s : State) (copyTo table : Option Nat) : State :=
  match s.dram.reports with
  | [] => s
  | r :: t =>
    let s := { s with dram := { s.dram with reports := t } }
    if (s.chan r.channel).fenced then s
    else
      let s := match s.dramEncode r.channel (r.line * 64) with
        | some a =>
          if r.kind ≠ 1 then s
          else
            let pages := nsInsert (a / 65536) (s.chan r.channel).uePages
            let s := s.modChan r.channel fun c => { c with uePages := pages }
            if pages.length > 32 then markChannel s r.channel 2 else s
        | none => s
      retirePage s r copyTo table

def execUeReport (copyTo table : Option Nat) (s : State) : Host.Outcome State Fault Refusal :=
  powered s (ueReport s copyTo table)

def linesPerChannel : Nat := 20971520

/-- The line at a place of a channel, as a compacted address. -/
def lineAddr (s : State) (ch line : Nat) : Nat := (s.dramEncode ch (line * 64)).getD 0

/-- R208: the patrol scrubber reads the next line of a channel, and what it finds beside the errors that the line already
holds is the operand; a pass takes its period when it begins. -/
def patrolScrub (s : State) (ch : Nat) (found : SymErrs) : State :=
  if !chanRuns s ch then s
  else
    let c := s.chan ch
    let period := if c.scrubPos = 0 then s.fld .drmScrub (ch / 16) [] 7 0 else c.scrubPeriod
    if period = 0 then s
    else
      let line := c.scrubPos
      let s := s.modChan ch fun c => { c with scrubPos := (line + 1) % linesPerChannel, scrubPeriod := period }
      (upset ch s (line, found)).noteRead (lineAddr s ch line)

def execPatrolScrub (ch : ChannelIx) (found : SymErrs) (s : State) : Host.Outcome State Fault Refusal :=
  powered s (patrolScrub s ch found)

/-- R216: an hour aligned to the Polestar seconds ends. -/
def ceHourEnd (s : State) : State :=
  s.dram.channels.foldl (fun s p =>
    let s := if p.2.hourCe > (s.reg .drmCeLimit (p.1 / 16)).toNat then markChannel s p.1 1 else s
    s.modChan p.1 fun c => { c with hourCe := 0 }) s

def execCeHourEnd (s : State) : Host.Outcome State Fault Refusal := powered s (ceHourEnd s)

/-- The distinct rows of a channel's uncorrectable lines within the last second (R218). -/
def recentRows (s : State) (ch : Nat) : Nat :=
  (((s.chan ch).ueRecent.filter fun e => decide (s.pst.up ≤ e.2 + 10^9)).map fun e => e.1 / 32).eraseDups.length

/-- The 64 KiB pages of this module that some translation maps. -/
def mappedPages (s : State) : List Nat :=
  let own := s.ownId.getD 0
  let roots := ((List.range 16).map fun c => (List.range 8).map fun x => xltRoot s c x).flatten.eraseDups
  (((roots.map fun r => leavesBelow 4 s 1 r).flatten).map fun e =>
    let p := bits e.2.1 55 12 / 16
    if p / 2^28 ≠ own then [] else (List.range (if e.2.2 = 3 then 32 else 1)).map fun i => p % 2^28 + i).flatten.eraseDups

/-- R218, R219: the channel is fenced and marked pending; every page with a granule on it is thereby retired, and the
mapped ones are rebuilt. -/
def channelFence (s : State) (ch : Nat) (cause : FenceChannelCause) : State :=
  if !s.dram.live.contains ch || (s.chan ch).fenced then s
  else if cause = .rows ∧ recentRows s ch < 8 then s
  else
    let hit := (mappedPages s).filter fun p => pageOnChannel s p ch && !pageRetired s p
    hit.foldl rebuildPage (markChannel (s.modChan ch fun c => { c with fenced := true }) ch 3)

def execChannelFence (ch : ChannelIx) (cause : FenceChannelCause) (s : State) : Host.Outcome State Fault Refusal :=
  powered s (channelFence s ch cause)

/-- R217: a write of 1 clears a pending bit and its Almanac copy. -/
def mapoutClear (s : State) (c bits : Nat) : State :=
  let s := (List.range 16).foldl (fun s i =>
    if bit bits i then s.modChan (16 * c + i) fun x => { x with pending := false } else s) s
  setPend s { s.dev.pend with channels := s.dev.pend.channels &&& ~~~ (BitVec.ofNat 256 (bits % 65536 * 2^(16 * c))) }

def execMapoutClear (c : ClusterIx) (bits : BitVec 16) (s : State) : Host.Outcome State Fault Refusal :=
  powered s (mapoutClear s c bits.toNat)

/-! ### Heat (R221 to R226) -/

def Level.num : Level → Nat
  | .normal => 0 | .warm => 1 | .hot => 2 | .critical => 3
def levelOf : Nat → Level
  | 0 => .normal | 1 => .warm | 2 => .hot | _ => .critical

/-- The entry threshold of a level, in 1/16 °C. -/
def entryTemp : Nat → Int
  | 1 => 1360 | 2 => 1520 | 3 => 1680 | _ => -1000000

/-- R222: the level at a sample of temperature t. -/
def levelDown (t : Int) : Nat → Nat
  | 0 => 0
  | n + 1 => if t < entryTemp (n + 1) - 80 then levelDown t n else n + 1

def nextLevel (level : Nat) (t : Int) : Nat :=
  let up := if t ≥ entryTemp 3 then 3 else if t ≥ entryTemp 2 then 2 else if t ≥ entryTemp 1 then 1 else 0
  if up > level then up else levelDown t level

/-- Another stack of the module is HOT or CRITICAL. -/
def otherHot (s : State) (st : Nat) : Bool :=
  (List.range 16).any fun i => decide (i ≠ st) && decide ((s.stack i).level.num ≥ 2)

def slowNotice (s : State) (state reason : Nat) : State :=
  { s.send (.slowNotice state reason s.pst.now) with dram := { s.dram with slowSent := decide (state = 1) } }

/-- R223 to R225: the actions of a level's change. -/
def levelChange (s : State) (st old new : Nat) (t : Int) : State :=
  let s := s.modStack st fun x => { x with level := levelOf new }
  let s := if new = 2 ∧ old < 2 then
      let s := (s.modAclk st fun a => { a with dram := min 7 (a.dram + 1) }).modStack st fun x =>
        { x with lastStepTemp := t, lastStepAt := s.pst.up, falling := false }
      if otherHot s st then s else slowNotice s 1 1
    else s
  let s := if new = 2 ∧ old = 3 then s.modStack st fun x => { x with lastStepTemp := t, lastStepAt := s.pst.up } else s
  let s := if new = 3 ∧ old < 3 then
      reportFailure (s.modStack st fun x =>
        { x with offline := true, criticalAt := some s.pst.up, falling := false, below95 := none })
    else s
  if new < 2 ∧ old ≥ 2 then
    let s := s.modStack st fun x => { x with falling := true, lastFallAt := s.pst.up }
    if s.dram.slowSent && !otherHot s st then slowNotice s 0 2 else s
  else s

/-- R221, R222: a sample of a stack's four sensors, corrected by their calibration offsets, in 1/16 °C.
DEDUCED: log entry 46. -/
def tempSample (s : State) (st : Nat) (readings : List (Option Int)) : State :=
  let rs := (List.range 4).map fun k => match readings.getD k none with
    | some t => let t := t + calOffset s (16960 + 8 * st + 2 * k); if sensorValid t then some t else none
    | none => none
  let ok := (rs.mapIdx fun k r => if r.isSome then 2^k else 0).foldl (· + ·) 0
  let t := maxOpt rs
  let old := (s.stack st).level.num
  let new := match t with
    | some t => nextLevel old t
    | none => 3
  let s := s.modStack st fun x => { x with temp := t, sampled := true, sensorOk := BitVec.ofNat 4 ok }
  let s := if new = old then s else levelChange s st old new (t.getD 0)
  match t with
  | some t => if (s.stack st).offline ∧ t < 1520 ∧ (s.stack st).below95 = none then
      s.modStack st fun x => { x with below95 := some s.pst.up } else s
  | none => s

def execStackTempSample (st : ClusterIx) (readings : List (Option Int)) (s : State) : Host.Outcome State Fault Refusal :=
  powered s (tempSample s st readings)

/-- R223: every 10 ms in HOT, the request rises by a step if the temperature has risen. -/
def hotStep (s : State) (st : Nat) : State :=
  let x := s.stack st
  if x.level ≠ .hot ∨ s.pst.up < x.lastStepAt + 10000000 then s
  else
    let t := x.temp.getD x.lastStepTemp
    let s := s.modStack st fun x => { x with lastStepTemp := t, lastStepAt := s.pst.up }
    if t > x.lastStepTemp then s.modAclk st fun a => { a with dram := min 7 (a.dram + 1) } else s

def execHotStepTick (st : ClusterIx) (s : State) : Host.Outcome State Fault Refusal := powered s (hotStep s st)

/-- R225: every 100 ms after the stack has left HOT downwards, the request falls by a step. -/
def dramFall (s : State) (c : Nat) : State :=
  let x := s.stack c
  if !x.falling || decide (s.pst.up < x.lastFallAt + 100000000) then s
  else
    let s := s.modAclk c fun a => { a with dram := a.dram - 1 }
    s.modStack c fun x => { x with lastFallAt := s.pst.up, falling := decide ((s.aclkOf c).dram ≠ 0) }

def execDramRequestFall (c : ClusterIx) (s : State) : Host.Outcome State Fault Refusal := powered s (dramFall s c)

/-- R224: the stack is back online; the pages made stale are rebuilt under R209 steps 1 to 3. -/
def stackOnline (s : State) (st : Nat) : State :=
  let x := s.stack st
  if !x.offline || x.below95.isNone then s
  else
    let s := s.modStack st fun x => { x with offline := false, below95 := none, criticalAt := none }
    let mine := s.dram.stale.filter fun p => (List.range 16).any fun i => pageOnChannel s p (16 * st + i)
    let s := { s with dram := { s.dram with stale := s.dram.stale.filter fun p => !mine.contains p } }
    mine.foldl rebuildPage s

def execStackOnline (st : ClusterIx) (s : State) : Host.Outcome State Fault Refusal := powered s (stackOnline s st)

end Sys2Proof.Machine
end

