-- ==== Sys2Proof/Machine/Firmware.lean ====
section
/-! DEFINITION. The configuration flash devices, the signed container, the configuration image, the calibration set and
the staging of an image (R471 to R487). -/

namespace Sys2Proof.Machine

/-! ### Regions (R472) -/

/-- A flash region: its device (false A, true B), its start and its size. -/
structure FlashRegion where
  devB : Bool
  lo : Nat
  size : Nat
  deriving DecidableEq, Repr

def rActive : FlashRegion := ⟨false, 0x0000000, 0x4000000⟩
def rConfig : FlashRegion := ⟨false, 0x4000000, 0x1000000⟩
def rCal : FlashRegion := ⟨false, 0x5000000, 0x100000⟩
def rStaging : FlashRegion := ⟨true, 0x0000000, 0x4000000⟩
def rFallback : FlashRegion := ⟨true, 0x4000000, 0x4000000⟩
def rMirror : FlashRegion := ⟨true, 0x8000000, 0x1000000⟩

/-- The flash that holds a region. -/
def flashOf (s : State) (r : FlashRegion) : Memory := if r.devB then s.dev.flashB else s.dev.flashA

def setFlash (s : State) (r : FlashRegion) (m : Memory) : State :=
  { s with dev := if r.devB then { s.dev with flashB := m } else { s.dev with flashA := m } }

def flashRead (s : State) (r : FlashRegion) (off n : Nat) : List Byte := Memory.read 0xFF (flashOf s r) (r.lo + off) n

/-- The cells of a memory within a range. -/
def cellsIn (m : Memory) (lo n : Nat) : Memory := m.filter fun c => decide (lo ≤ c.1) && decide (c.1 < lo + n)

/-- A range of a memory replaced by other cells of that range. -/
def splice (m : Memory) (lo n : Nat) (new : Memory) : Memory :=
  m.filter (fun c => decide (c.1 < lo)) ++ new ++ m.filter fun c => decide (lo + n ≤ c.1)

def eraseRegion (s : State) (r : FlashRegion) : State := setFlash s r (splice (flashOf s r) r.lo r.size [])

/-- The first `n` bytes of a region copied over another region, which is erased for it. -/
def copyRegion (s : State) (src dst : FlashRegion) (n : Nat) : State :=
  let new := (cellsIn (flashOf s src) src.lo (min n (min src.size dst.size))).map fun c => (c.1 - src.lo + dst.lo, c.2)
  setFlash s dst (splice (flashOf s dst) dst.lo dst.size new)

/-- Bytes programmed into an erased part of a region. -/
def programAt (s : State) (r : FlashRegion) (off : Nat) (b : List Byte) : State :=
  setFlash s r (Memory.write 0xFF (flashOf s r) (r.lo + off) b)

/-! ### The signed container (R473 to R475) -/

def cKind (c : List Byte) : Nat := fieldAt c 4 1
def cKey (c : List Byte) : Nat := fieldAt c 7 1
def cSvn (c : List Byte) : Nat := fieldAt c 6 1
def cVersion (c : List Byte) : Nat := fieldAt c 12 4
def cLength (c : List Byte) : Nat := fieldAt c 16 8

/-- The checks of step 1 on the header, for a container of `len` bytes received. -/
def headerOk (h : List Byte) (len : Nat) : Bool :=
  decide (h.take 4 = ascii "KYFW")
  && (cKind h == 1 || cKind h == 2) && decide (fieldAt h 5 1 < 2)
  && decide (cSvn h ≤ 64) && (cKind h == 1 || cSvn h == 0)
  && (decide (cKey h < 2) || (cKind h == 2 && decide (0x10 ≤ cKey h) && decide (cKey h ≤ 0x13)))
  && cLength h % 4096 == 0 && decide (4096 ≤ cLength h) && decide (cLength h ≤ 2^26) && cLength h == len
  && (cKind h == 1 || decide (cLength h ≤ rConfig.size))
  && (fieldAt h 5 1 == 1 || zeroAt h 24 16) && zeroAt h 40 24

/-- The public key that KEY names, none when it is revoked or empty (R474, R480). `ops` is the configuration whose
OPERATORS count. DESIGN CHOICE: log entry 51. -/
def containerKey (s : State) (ops : List Byte) (key : Nat) : Option (List Byte) :=
  if key = 0 ∧ s.dev.key0Revoked = true then none
  else if key < 2 then some ((List.range 57).map (Config.kykecyKey key))
  else
    let e := (ops.drop (1056 + 58 * (key - 0x10))).take 58
    if e.length < 58 ∨ (e.take 57).all (· = 0) ∨ fieldAt e 57 1 % 2 = 1 then none else some (e.take 57)

def hwType : Nat := 0x4B598160

/-- R475 on a whole container: none when it is valid, else the status and the detail of the first check that fails.
`staged` asks for the VERSION of a configuration to rise. DEDUCED: log entry 100. -/
def containerCheck (s : State) (ops : List Byte) (staged : Bool) (c : List Byte) : Option (Status × Nat) :=
  let n := c.length
  if !headerOk (c.take 64) n || !zeroAt c (n - 14) 14 then some (.badDescriptor, 0x52)
  else if fieldAt c 8 4 ≠ hwType then some (.bindingFail, 0x53)
  else if fieldAt c 5 1 = 1 ∧ fieldAt c 24 16 ≠ s.dev.serial.toNat then some (.bindingFail, 0x54)
  else
    match containerKey s ops (cKey c) with
    | none => some (.bindingFail, 0x57)
    | some k =>
      if !edVerify true "VL8160-FW" k (c.take (n - 128)) ((c.drop (n - 128)).take 114) then some (.sigFail, 0x55)
      else if (cKind c = 1 ∧ cSvn c < s.dev.fuseSvn) ∨ (cKind c = 2 ∧ staged = true ∧ cVersion c ≤ s.dev.image.cfgVer.toNat)
      then some (.rollback, 0x56)
      else none

/-- The container that a region holds, none where its header cannot be one. -/
def regionImage (s : State) (r : FlashRegion) : Option (List Byte) :=
  let h := flashRead s r 0 64
  if h.take 4 = ascii "KYFW" then
    (if cLength h ≤ r.size ∧ headerOk h (cLength h) = true then some (flashRead s r 0 (cLength h)) else none)
  else none

/-- A valid firmware image in a region. -/
def firmwareIn (s : State) (r : FlashRegion) : Option (List Byte) :=
  match regionImage s r with
  | some c => if cKind c = 1 ∧ containerCheck s [] false c = none then some c else none
  | none => none

/-! ### The configuration image (R480) -/

/-- The offset of the first byte of a range that is not 0. -/
def firstNonzero (c : List Byte) (off n : Nat) : List Nat :=
  match ((c.drop off).take n).findIdx? (· ≠ 0) with
  | some i => [off + i]
  | none => []

/-- The offset of a field where a condition fails. -/
def failAt (bad : Bool) (off : Nat) : List Nat := if bad then [off] else []

/-- The address entries of a configuration: the offset, the module and port that each speaks for, and the 24 bytes.
SERVICE_ADDR of position p speaks for the module of that position of this sheaf. -/
def addrEntries (c : List Byte) (modules : Nat) : List (Nat × (Nat × Nat) × List Byte) :=
  let sheaf := fieldAt c 64 2
  ((List.range 64).map fun i => (1344 + 24 * i, (8 * sheaf + i / 8, i % 8), (c.drop (1344 + 24 * i)).take 24))
  ++ ((List.range (8 * modules)).map fun i => (4096 + 24 * i, (i / 8, i % 8), (c.drop (4096 + 24 * i)).take 24))

/-- The offsets at which an address stands that an earlier entry, for another module or port, already gave. -/
def duplicates (part : List Byte → List Byte) (shift : Nat) :
    List (Nat × (Nat × Nat) × List Byte) → List ((Nat × Nat) × List Byte) → List Nat
  | [], _ => []
  | (off, who, e) :: t, seen =>
    let a := part e
    if a.all (· = 0) then duplicates part shift t seen
    else
      (if seen.any fun x => decide (x.2 = a) && decide (x.1 ≠ who) then [off + shift] else [])
        ++ duplicates part shift t ((who, a) :: seen)

/-- The lowest of a list of offsets. -/
def lowest (l : List Nat) : Option Nat := l.foldl (fun b x => match b with
  | some y => some (min x y)
  | none => some x) none

/-- R480: the container offset of the first field that conflicts. -/
def configConflict (c : List Byte) : Option Nat :=
  let b := fun i => fieldAt c i 1
  let sheaf := fieldAt c 64 2
  let pos := b 66
  let own := 8 * sheaf + pos
  let mods := fieldAt c 2880 4
  let fits := decide (4096 + 192 * mods + 128 ≤ c.length)
  let ents := addrEntries c (if fits then mods else 0)
  lowest (
    failAt (decide (sheaf > 511)) 64 ++ failAt (decide (pos > 8)) 66 ++ failAt (decide (b 67 ≥ 8)) 67
    ++ failAt (decide (fieldAt c 68 2 > 1280)) 68 ++ firstNonzero c 70 2 ++ failAt (fieldAt c 72 4 == 0) 72
    ++ ((List.range 16).map fun i => failAt (decide (b (76 + i) > 16)) (76 + i)).flatten
    ++ ((List.range 8).map fun i => failAt (decide (b (92 + i) > 3)) (92 + i)).flatten
    ++ ((List.range 4).map fun i => failAt (decide (b (100 + i) > 1)) (100 + i)).flatten
    ++ firstNonzero c 104 24
    ++ ((List.range 20).map fun i => failAt (decide (b (128 + 58 * i + 57) > 1)) (128 + 58 * i + 57)).flatten
    ++ firstNonzero c 1288 56
    ++ ((List.range 64).map fun i =>
        failAt (b (92 + i % 8) == 0 && !zeroAt c (1344 + 24 * i) 24) (1344 + 24 * i)).flatten
    ++ failAt (decide (mods = 0) || decide (mods > 4096) || !fits || (decide (pos < 8) && decide (mods ≤ own))) 2880
    ++ firstNonzero c 2884 1212
    ++ (ents.map fun e => failAt (!zeroAt e.2.2 22 2) (e.1 + 22)).flatten
    ++ (if pos < 8 then ((List.range 8).map fun k =>
        failAt (fits && decide (own < mods)
          && decide ((c.drop (4096 + 192 * own + 24 * k)).take 24 ≠ (c.drop (1344 + 192 * pos + 24 * k)).take 24))
          (4096 + 192 * own + 24 * k)).flatten else [])
    ++ duplicates (fun e => e.take 16) 0 ents [] ++ duplicates (fun e => (e.drop 16).take 6) 16 ents [])

/-- A configuration in a region: none when it is not valid under R475, else the image and what conflicts in it. -/
def configIn (s : State) (r : FlashRegion) : Option (List Byte × Option Nat) :=
  match regionImage s r with
  | some c => if cKind c = 2 ∧ containerCheck s c false c = none then some (c, configConflict c) else none
  | none => none

/-! ### Calibration (R483) -/

def calLen : Nat := 63104

/-- The offset of the first field that fails; `operator` asks for ORIGIN 0x02. -/
def calBad (s : State) (c : List Byte) (operator : Bool) : Option Nat :=
  let sensor := fun i => toInt 16 (fieldAt c (16960 + 2 * i) 2)
  let mhz := fun i => fieldAt c (64 + 4 * i + 2) 2
  lowest (
    failAt (decide (c.take 4 ≠ ascii "KYCL")) 0 ++ failAt (fieldAt c 4 4 != hwType) 4
    ++ failAt (fieldAt c 8 16 != s.dev.serial.toNat) 8
    ++ failAt (!(fieldAt c 24 1 == 2 || (fieldAt c 24 1 == 1 && !operator))) 24
    ++ firstNonzero c 25 3 ++ failAt (decide (fieldAt c 32 4 ≠ crc32c (c.take 32 ++ c.drop 36))) 32
    ++ firstNonzero c 36 28
    ++ ((List.range 128).map fun i =>
        failAt (decide (fieldAt c (64 + 4 * i) 2 < 600) || decide (fieldAt c (64 + 4 * i) 2 > 1000)) (64 + 4 * i)
        ++ failAt (decide (mhz i < 500) || decide (mhz i > 2700) || (i % 8 != 0 && decide (mhz i ≤ mhz (i - 1))))
          (64 + 4 * i + 2)).flatten
    ++ ((List.range 80).map fun i =>
        failAt (decide (sensor i < -320) || decide (sensor i > 320)) (16960 + 2 * i)).flatten
    ++ firstNonzero c 23520 39584)

/-- The calibration set of flash A, and the offset at which it fails. -/
def calIn (s : State) : List Byte × Option Nat :=
  if (flashRead s rCal 0 4) = ascii "KYCL" then
    (flashRead s rCal 0 calLen, calBad s (flashRead s rCal 0 calLen) false)
  else ([], some 0)

/-! ### Staging (R486, R487, R493) -/

/-- A new staging session: an earlier one is discarded, PENDING clears, and STAGING is erased. -/
def stageOpen (s : State) (path : StagePath) : State :=
  let s := eraseRegion { s with dev := { s.dev with session := some ⟨path, [], none⟩ } } rStaging
  setImage s { s.dev.image with pending := false, stagedKind := 0, stagedLen := 0 }

/-- The 4 KiB pages that a block covers. -/
def blockPages (off len : Nat) : List Nat := (List.range (len / 4096)).map fun i => off / 4096 + i

/-- The pages of a block that the session has not received, programmed. -/
def stagePages (s : State) (off : Nat) (data : List Byte) : State :=
  match s.dev.session with
  | none => s
  | some x =>
    let new := (blockPages off data.length).filter fun p => !x.pages.contains p
    let s := new.foldl (fun s p => programAt s rStaging (4096 * p) ((data.drop (4096 * p - off)).take 4096)) s
    { s with dev := { s.dev with session := some { x with pages := new.foldl (fun l p => nsInsert p l) x.pages } } }

/-- Has every page below the image length been received. -/
def stageWhole (s : State) : Option Nat :=
  match s.dev.session with
  | some x => match x.len with
    | some n => if (List.range (n / 4096)).all x.pages.contains then some n else none
    | none => none
  | none => none

/-- R487: the check of an image that has become whole, with its outcome; the session ends with it. A configuration that
conflicts under R480 fails as malformed. -/
def stageVerify (s : State) (n : Nat) : State × Status × Nat :=
  let c := flashRead s rStaging 0 n
  let s := { s with dev := { s.dev with session := none } }
  match containerCheck s s.dev.config true c with
  | some (st, d) => (s, st, d)
  | none =>
    if cKind c = 2 ∧ configConflict c ≠ none then (s, .badDescriptor, 0x52)
    else (setImage s { s.dev.image with pending := true, stagedKind := cKind c, stagedLen := n }, .ok, 0)

/-- A block received on the path that holds the session: programmed, and checked when the image is whole.
DEDUCED: log entry 100. -/
def stageBlock (s : State) (off : Nat) (data : List Byte) (final : Option Nat) : State × Status × Nat :=
  let s := stagePages s off data
  let s := match s.dev.session, final with
    | some x, some n => { s with dev := { s.dev with session := some { x with len := some n } } }
    | _, _ => s
  match stageWhole s with
  | some n => stageVerify s n
  | none => (s, .ok, 0)

/-- Does the session hold every page of a block with the same bytes; with other bytes in some page. -/
def stageSame (s : State) (off : Nat) (data : List Byte) : Bool × Bool :=
  match s.dev.session with
  | none => (false, false)
  | some x =>
    let pages := blockPages off data.length
    let eq := fun p => decide (flashRead s rStaging (4096 * p) 4096 = (data.drop (4096 * p - off)).take 4096)
    (pages.all fun p => x.pages.contains p && eq p, pages.any fun p => x.pages.contains p && !eq p)

/-- The checks of R486 and the block itself. -/
def fwBlock (s : State) (off len : Nat) (final : Bool) (data : List Byte) : State × Status × Nat :=
  let path := s.dev.session.map (·.path)
  if off % 4096 ≠ 0 ∨ len % 4096 ≠ 0 then (s, .badDescriptor, 0x01)
  else if len = 0 then (s, .zero, 0)
  else if off + len > 2^26 ∨ (off ≠ 0 ∧ path.isNone) then (s, .outOfRange, 0x01)
  else if path = some .pldm then (s, .noResource, 0x50)
  else
    let (same, differ) := stageSame s off data
    if differ && off != 0 then (s, .badDescriptor, 0x51)
    else
      let s := if off = 0 ∧ same = false then stageOpen s .service else s
      stageBlock s off data (if final then some (off + len) else none)

end Sys2Proof.Machine
end

