-- ==== Sys2Proof/Machine/Startup.lean ====
section
/-! DEFINITION. Starts, restarts, the device states, and the confirmation of an image (R476 to R482, R488 to R492). -/

namespace Sys2Proof.Machine

/-! ### The images at a start (R488, R489) -/

/-- R488: what PENDING or an interrupted phase calls for at step 4. -/
def applyStaged (s : State) : State :=
  let i := s.dev.image
  let staged := flashRead s rStaging 0 64
  if i.phase = 4 ∨ (i.phase = 0 ∧ i.pending = true ∧ i.stagedKind = 2) then
    let s := copyRegion s rStaging rConfig i.stagedLen
    let s := copyRegion s rConfig rMirror rConfig.size
    setImage s { i with phase := 0, pending := false, cfgVer := BitVec.ofNat 32 (cVersion staged) }
  else if i.phase = 1 ∨ i.phase = 2 ∨ i.pending = true then
    let (s, i) := if i.phase ≠ 2 ∧ i.confirmed = true then
        (copyRegion s rActive rFallback rActive.size,
          { i with svnFallback := i.svnActive, verFallback := i.verActive })
      else (s, i)
    let s := copyRegion s rStaging rActive i.stagedLen
    setImage s { i with phase := 0, pending := false, confirmed := false, tries := 0, svnActive := cSvn staged,
                        verActive := BitVec.ofNat 32 (cVersion staged) }
  else s

/-- The RESTORE of R489: FALLBACK becomes ACTIVE, confirmed, and a record says so. -/
def restore (s : State) : State :=
  let i := s.dev.image
  let s := copyRegion s rFallback rActive rFallback.size
  let s := setImage s { i with phase := 0, confirmed := true, tries := 0, pending := false, svnActive := i.svnFallback,
                               verActive := i.verFallback }
  s.record 0x0041 0 0 (leBytes 4 i.verActive.toNat ++ leBytes 4 i.verFallback.toNat)

/-- Steps 4 and 5: the state with an image to run, or none where NO_IMAGE remains. `a` and `b` say which flash can be
read. -/
def chooseImage (s : State) (a b : Bool) : State × Bool :=
  let fallback := fun s => b && (firmwareIn s rFallback).isSome
  if !a then (s, fallback s)
  else
    let s := if !b then s else if s.dev.image.phase = 3 then restore s else applyStaged s
    let i := s.dev.image
    if i.confirmed = false ∧ i.tries + 1 ≥ 3 then
      (if fallback s then (restore s, true) else (s, false))
    else
      let s := if i.confirmed then s else setImage s { i with tries := i.tries + 1 }
      if (firmwareIn s rActive).isSome then (s, true)
      else if fallback s then (restore s, true) else (s, false)

/-! ### SAFE and the configuration (R477, R480, R481) -/

/-- The entry into SAFE with its code and item. DEDUCED: log entry 105. -/
def enterSafe (s : State) (code item ms : Nat) : State :=
  { s with dev := { s.dev with mode := .safe, safeCode := code, safeItem := item, startMs := ms, upAt := s.pst.up }
  }.record 0x0040 0 0 (leBytes 1 code ++ leBytes 4 item)

/-- What step 6 finds: the configuration to use, with CONFIG and its mirror made equal, or a SAFE code and item. -/
def chooseConfig (s : State) (a b : Bool) : State × Option (List Byte) × Nat × Nat :=
  let main := if a then configIn s rConfig else none
  let mirror := if b then configIn s rMirror else none
  match main, mirror with
  | some (c, none), _ => (if b then copyRegion s rConfig rMirror rConfig.size else s, some c, 0, 0)
  | _, some (c, none) => (if a then copyRegion s rMirror rConfig rMirror.size else s, some c, 0, 0)
  | some (_, some off), _ => (s, none, 3, off)
  | none, some (_, some off) => (s, none, 3, off)
  | none, none => (s, none, 2, 0)

/-- The identity that a configuration gives (R21, R22, R480). DESIGN CHOICE: log entry 5. -/
def useConfig (s : State) (c : List Byte) : State :=
  let sheaf := fieldAt c 64 2
  let pos := fieldAt c 66 1
  { s with dev := { s.dev with
      config := c, sheaf := sheaf, position := pos, noPosition := false
      module := if pos < 8 then some (BitVec.ofNat 12 (8 * sheaf + pos)) else none } }

/-! ### Units, DRAM and blocks (steps 7 to 10) -/

/-- The clusters all of whose cores are in a set. -/
def emptyClusters (cores : BitVec 128) : BitVec 16 :=
  BitVec.ofNat 16 (((List.range 16).map fun c =>
    if (List.range 8).all fun k => cores.getLsbD (8 * c + k) then 2^c else 0).sum)

/-- Step 7: the fallow units, and the clusters that become pending. -/
def findFallow (s : State) (e : StartEnv) : State :=
  let p := s.dev.pend
  let cores := e.failCores ||| p.cores
  let clusters := e.failClusters ||| emptyClusters cores
  let s := if clusters &&& p.clusters = clusters then s else setPend s { p with clusters := p.clusters ||| clusters }
  { s with dev := { s.dev with fallow := {
      cores := cores, channels := e.failChannels ||| p.channels, clusters := clusters ||| p.clusters
      sup := ~~~e.supPass ||| p.sup, eth := e.failEth ||| p.eth, pcie := e.failPcie ||| p.pcie
      furrow := e.failFurrow ||| p.furrow
      flash := BitVec.ofNat 2 ((!e.flashA).toNat + 2 * (!e.flashB).toNat) ||| p.flash } } }

/-- Steps 8 and 9: the live channels, the windows' SPREAD share, and the pending marks of the channels. -/
def layDram (s : State) : State :=
  let f := s.dev.fallow.channels
  let s := { s with dram := { s.dram with
    live := (List.range 256).filter fun n => !f.getLsbD n, shareMib := fieldAt s.dev.config 68 2 } }
  (List.range 256).foldl (fun s n =>
    if f.getLsbD n || s.dev.pend.channels.getLsbD n then
      s.modChan n fun c => { c with mapped := f.getLsbD n, pending := s.dev.pend.channels.getLsbD n }
    else s) s

/-- The entry of a retirement slot: copy 0 where its CHECK is correct, else copy 1. -/
def retireSlot (s : State) (st i : Nat) : Option (List Byte) :=
  let rd := fun copy => Memory.read 0xFF s.dev.flashA (retireBase st + 16 * i + copy * 2^20) 16
  let good := fun e => decide (fieldAt e 12 4 = crc32c (e.take 12))
  if good (rd 0) then some (rd 0) else if good (rd 1) then some (rd 1) else none

/-- The used slots of a list, found through the flash's cells. -/
def retireSlots (s : State) (st : Nat) : List Nat :=
  (s.dev.flashA.filterMap fun c =>
    let o := c.1 - 0x5100000
    if c.1 ≥ 0x5100000 ∧ o < 2^21 ∧ o % 2^20 / 65536 = st then some (o % 65536 / 16) else none).eraseDups

/-- R214: the pages that valid entries name are retired. -/
def applyRetired (s : State) : State :=
  let pages := ((List.range 16).map fun st => (retireSlots s st).filterMap fun i =>
    match retireSlot s st i with
    | some e => (s.dramEncode (fieldAt e 0 1) (fieldAt e 4 4 % 2^25 * 64)).map (· / 65536)
    | none => none).flatten.eraseDups
  let s := { s with dram := { s.dram with retired := pages.map fun p => (p, none) } }
  (List.range 16).foldl markDegraded s

/-- R418: the unit kind of the first part of the compute set that is absent. DEDUCED: log entry 105. -/
def computeMissing (s : State) : Option Nat :=
  if (List.range 128).all s.coreFallow then some 0
  else if s.dram.live = [] then some 1
  else if (List.range 8).all fun k => s.dev.fallow.eth.getLsbD k && s.dev.fallow.furrow.getLsbD k then some 4
  else none

/-- R449, R450: the group that reaches each position from one's own; 0xF where none does. -/
def routeTo (own p : Nat) : Nat :=
  if own = p then 0xF
  else if own = 8 then p
  else if p = 8 then 7
  else (p + 7 - own) % 8

/-- R460: what a root port's links train to. -/
def trainPcie (split : Bool) (usable : Bool) (l : List PcieLink) : PciPort :=
  let one := fun i => (l.getD i ⟨0, 0, false⟩)
  let up := fun i => usable && decide ((one i).gen ≥ 4) && (i == 0 || split)
  let both := [0, 1]
  { split := split
    speed := both.map fun i => if up i then min 6 (one i).gen else 0
    width := both.map fun i => if up i then (if split then 4 else (one i).width) else 0
    lowGen := both.map fun i => usable && (i == 0 || split) && decide (0 < (one i).gen) && decide ((one i).gen < 4)
    drive := both.map fun i => up i && (one i).drive }

/-- Step 10: the configuration in every field whose Reset column reads "cfg", the route table, and the ports' modes. -/
def leaveReset (s : State) (e : StartEnv) : State :=
  let c := s.dev.config
  let fl := fieldAt c 67 1
  let s := s.setFld .frwCtrl 0 [] 0 0 (bits fl 0 0)
  let s := (List.range 16).foldl (fun s i =>
    ((s.setFld .xltCtrl i [] 0 0 (bits fl 1 1)).setFld .cluScCfg i [] 4 0 (fieldAt c (76 + i) 1)).setReg .drmCeLimit i []
      (BitVec.ofNat 32 (fieldAt c 72 4))) s
  let s := s.setFld .thrCollCtrl 0 [] 0 0 (bits fl 2 2)
  let s := (List.range 9).foldl (fun s p => s.setFld .frwRoute 0 [p] 3 0 (routeTo s.dev.position p)) s
  let s := (List.range 8).foldl (fun s k => s.modEth k fun x => { x with mode := fieldAt c (92 + k) 1 }) s
  let s := (List.range 4).foldl (fun s k => s.modPci k fun _ =>
    trainPcie (fieldAt c (100 + k) 1 == 1) (!s.dev.fallow.pcie.getLsbD k) ((e.pcie.drop (2 * k)).take 2)) s
  { s with dev := { s.dev with ordEff := bit fl 2, started := true } }

/-! ### A start (R476, R477) -/

/-- The boot ROM has the MRAM: the image state, the pending marks, the scan, and the count of starts. -/
def readAlmanac (s : State) : State :=
  let m := s.alm.mram
  let img := match pinRead m itemImage with
    | some b => imageOf b
    | none => {}
  let pend := match pinRead m itemPending with
    | some b => unitsOf b
    | none => {}
  let (starts, loss) := match pinRead m itemStarts with
    | some b => (BitVec.ofNat 32 (fieldAt b 0 4), BitVec.ofNat 64 (fieldAt b 8 8))
    | none => (0#32, 0#64)
  let s := { s with
    dev := { s.dev with image := img, pend := pend, starts := Word.incSat starts 1 }
    alm := { s.alm with lossTime := loss } }
  almScan (writeStarts s)

/-- Less than the Management set: the die stays in OFF and the pins own the MRAM (R477, R512). -/
def stayOff (s : State) : State :=
  { s with dev := { s.dev with mode := .off }, alm := { s.alm with dieOwns := false } }

/-- Steps 7 to 10. DESIGN CHOICE: log entry 49. -/
def startUnits (s : State) (e : StartEnv) : State :=
  let s := applyRetired (layDram (findFallow s e))
  match computeMissing s with
  | some kind => enterSafe s 5 kind e.ms
  | none => leaveReset s e

/-- Steps 3 to 10 of a start, on a die that has left its reset. DESIGN CHOICE: log entry 49. -/
def startUp (s : State) (e : StartEnv) : State :=
  if !e.clockOk || e.supPass == 0 then stayOff s
  else
    let s := readAlmanac { s with
      dev := { s.dev with mode := .boot }
      alm := { s.alm with dieOwns := true, stopped := s.power.inputFail } }
    if (!e.flashA && !e.flashB) || e.supPass &&& ~~~s.dev.pend.sup == 0 then stayOff s
    else
      let (s, run) := chooseImage s e.flashA e.flashB
      if !run then enterSafe s 1 0 e.ms
      else
        match chooseConfig s e.flashA e.flashB with
        | (s, none, code, item) => enterSafe s code item e.ms
        | (s, some c, _, _) =>
          let s := useConfig s c
          if !e.flashA then enterSafe s 7 0 e.ms
          else
            match calIn s with
            | (_, some off) => enterSafe s 4 off e.ms
            | (cal, none) => startUnits { s with dev := { s.dev with cal := cal } } e

/-- R479: what a warm restart leaves: the fuses, the clock and reset unit, the Almanac's memory, the flash and the
input. -/
def warm (s : State) : State :=
  let c := cold s
  { c with
    power := s.power
    dev := { c.dev with confirmedFallow := s.dev.confirmedFallow } }

/-! ### Commands -/

/-- MODULE_EN rises with the input inside its range: the rails come up and a start runs (R476, R518).
DESIGN CHOICE: log entry 8. DEDUCED: log entry 50. -/
def execModuleEnAssert (env : StartEnv) (s : State) : Host.Outcome State Fault Refusal :=
  .next (
    if s.power.moduleEn || s.on then s
    else if !env.inRange then { s with power := { s.power with moduleEn := true } }
    else
      let c := cold s
      startUp { c with
        power := { c.power with moduleEn := true, railsGood := true, pwrGood := true }
        dev := { c.dev with mode := .boot, confirmedFallow := s.dev.confirmedFallow } } env)

/-- MODULE_EN falls: OFF from any state (R478, R518). -/
def execModuleEnDeassert (s : State) : Host.Outcome State Fault Refusal :=
  let t := railsOff s
  .next { t with power := { t.power with moduleEn := false }
                 dev := { t.dev with confirmedFallow := s.dev.confirmedFallow } }

/-- The warm restart that has been ordered, when its time has come (R478, R479). -/
def execWarmRestart (env : StartEnv) (s : State) : Host.Outcome State Fault Refusal :=
  powered s <|
    match s.dev.restartAt with
    | some t => if s.pst.up ≥ t then startUp (warm s) env else s
    | none => s

/-- A warm restart ordered at a time. -/
def orderRestart (s : State) (at_ : Nat) : State := { s with dev := { s.dev with restartAt := some at_ } }

/-- Is an Ethernet port or a furrow group UP (R476 step 11). -/
def dataPortUp (s : State) : Bool :=
  (List.range 8).any fun k => (s.ethPort k).up || (s.link k).state == .up

/-- Step 11: SERVICE, once the compute set is present and a data port is UP. DEDUCED: log entry 50. -/
def execServiceEntry (ms : Nat) (s : State) : Host.Outcome State Fault Refusal :=
  powered s <|
    if s.dev.mode = .boot ∧ s.dev.started = true ∧ computeMissing s = none ∧ dataPortUp s = true then
      { s with dev := { s.dev with
          mode := .service, startMs := ms, upAt := s.pst.up
          confirmedFallow := if s.dev.image.confirmed then s.dev.fallow else s.dev.confirmedFallow } }
    else s

/-- R477: no data port UP within 5 s of step 10. -/
def execNoDataPortTimeout (s : State) : Host.Outcome State Fault Refusal :=
  powered s <|
    if s.dev.mode = .boot ∧ s.dev.started = true ∧ dataPortUp s = false ∧ s.pst.up ≥ 5 * 10^9 then
      enterSafe s 6 0 (s.pst.up / 10^6)
    else s

/-- R478: 10 s in FAILED. -/
def execFailedTimeout (s : State) : Host.Outcome State Fault Refusal :=
  powered s <|
    if s.dev.mode = .failed ∧ s.pst.up ≥ s.dev.failedAt + 10 * 10^9 then orderRestart s s.pst.up else s

/-- Every unit of the first set that is not in the second. -/
def UnitSets.within (a b : UnitSets) : Bool :=
  a.cores &&& ~~~b.cores == 0 && a.channels &&& ~~~b.channels == 0 && a.clusters &&& ~~~b.clusters == 0
  && a.sup &&& ~~~b.sup == 0 && a.eth &&& ~~~b.eth == 0 && a.pcie &&& ~~~b.pcie == 0
  && a.furrow &&& ~~~b.furrow == 0 && a.flash &&& ~~~b.flash == 0

/-- R490, R492: the confirmation of an image, and the fuses blown with it. -/
def confirmImage (s : State) : State :=
  let s := setImage s { s.dev.image with confirmed := true }
  { s with dev := { s.dev with
      confirmedFallow := s.dev.fallow
      fuseSvn := max s.dev.fuseSvn (min s.dev.image.svnActive s.dev.image.svnFallback) } }

/-- R490: the four conditions. -/
def confirmPasses (s : State) : Bool :=
  (s.dev.mode == .service || s.dev.mode == .eclipse || s.dev.mode == .drain)
  && s.dev.fallow.within s.dev.confirmedFallow
  && ((List.range 8).all fun k => (s.ethPort k).mode == 0 || (s.ethPort k).up)
  && !s.dev.internal

/-- A check of an unconfirmed image, 300 s after SERVICE and then every 60 s (R490). -/
def execConfirmCheck (s : State) : Host.Outcome State Fault Refusal :=
  powered s <|
    if s.dev.image.confirmed ∨ s.dev.mode = .boot ∨ s.dev.mode = .safe ∨ s.dev.mode = .failed
      ∨ s.pst.up < (s.dev.nextConfirm.getD (s.dev.upAt + 300 * 10^9)) then s
    else if confirmPasses s then confirmImage s
    else { s with dev := { s.dev with nextConfirm := some (s.pst.up + 60 * 10^9) } }

/-- R491: an image still unconfirmed 900 s after SERVICE, or after SAFE with an image that runs. -/
def execConfirmDeadline (s : State) : Host.Outcome State Fault Refusal :=
  powered s <|
    if s.dev.image.confirmed ∨ (s.dev.mode ≠ .safe ∧ s.dev.mode ≠ .service ∧ s.dev.mode ≠ .drain) ∨ s.pst.up < s.dev.upAt + 900 * 10^9
      ∨ (s.dev.mode = .safe ∧ s.dev.safeCode = 1) then s
    else
      let s := if s.dev.mode = .safe then s else reportFailure s
      orderRestart (s.record 0x0041 0 0 (leBytes 4 s.dev.image.verActive.toNat ++ leBytes 4 0)) s.pst.up

/-! ### Shadow groups (R482) -/

/-- COMMIT snapshots the STAGGER group of a cluster; a later one replaces a snapshot that waits.
DEDUCED: log entry 60. -/
def staggerCommit (s : State) (c : Nat) : State :=
  s.modCluster c fun x => { x with autoSnap := some (s.fld .cluMxeStagger c [] 0 0 == 1) }

def execStaggerCommit (c : ClusterIx) (s : State) : Host.Outcome State Fault Refusal :=
  powered s (if s.clusterFallow c then s else staggerCommit s c)

/-- COMMIT snapshots the COLL group. DEDUCED: log entry 60. -/
def collCommit (s : State) : State := { s with dev := { s.dev with ordSnap := some (s.fld .thrCollCtrl 0 [] 0 0 == 1) } }

def execCollCommit (s : State) : Host.Outcome State Fault Refusal := powered s (collCommit s)

/-- A group's snapshot applied at its safe boundary. -/
def shadowApply (s : State) : ShadowGroup → State
  | .stagger c => match (s.cluster c).autoSnap with
    | some v => s.modCluster c fun x => { x with autoEff := v, autoSnap := none }
    | none => s
  | .coll => match s.dev.ordSnap with
    | some v => { s with dev := { s.dev with ordEff := v, ordSnap := none } }
    | none => s

def execShadowGroupApply (g : ShadowGroup) (s : State) : Host.Outcome State Fault Refusal := powered s (shadowApply s g)

end Sys2Proof.Machine
end

