-- ==== Sys2Proof/Machine/Collectives.lean ====
section
/-! DEFINITION. The reduction router: joins, instances, what each collective delivers, deadlines, gleaning and slow
members (R336 to R360). -/

namespace Sys2Proof.Machine

/-! ### Elements and reductions (R83 to R86, R348, R349) -/

/-- a / n in a format, correctly rounded. DEDUCED: log entry 71. -/
def FFmt.divNat (f : FFmt) (a : FVal) (n : Nat) : FVal :=
  match a with
  | .fin s m e =>
    if n = 0 then .nan
    else
      let k := 64 + Nat.log2 n
      f.rne s (m * 2^k / n) (e - k) (m * 2^k % n != 0)
  | v => v

/-- An integer divided, rounded to nearest-even. DEDUCED: log entry 71. -/
def intDiv (a : Int) (n : Nat) : Int :=
  if n = 0 then 0
  else
    let q := a / n
    let r := 2 * (a % n)
    if r > n ∨ (r = n ∧ q % 2 = 1) then q + 1 else q

/-- The TYPE of R195 that a result format is combined in; none where ARRIVAL does not accept the format. -/
def arrivalType (fmt : Nat) : Option Nat :=
  if fmt = 0 then some 0 else if fmt = 1 then some 1 else if fmt = 3 then some 2 else if fmt = 8 then some 3 else none

/-- R83: an element's arrivals combined one after another into 0, and the average. -/
def reduceArrival (fmt ty : Nat) (avg : Option Nat) (l : List Nat) : Nat :=
  let v := l.foldl (combine 0 ty) 0
  match avg with
  | none => v
  | some n =>
    if n = 0 then 0
    else if ty = 3 then ofInt 32 (intDiv (toInt 32 v) n)
    else
      let f := if ty = 0 then fp32 else if ty = 1 then bf16 else f12w
      (convFloat f none (f.divNat (elemVal fmt v) n)).1

/-- R84 to R86: a member's leaf, from what was gleaned and what it contributes now. -/
def leafOf (fmt : Nat) (gleaned current : Option Nat) : FVal :=
  let cur := match current with
    | some w => elemVal fmt w
    | none => .fin false 0 fp32.emin
  match gleaned with
  | some g => (F.add (elemVal fmt g) cur).1
  | none => cur

/-- R84: the tree of a constellation over its direct members, a nested constellation's result being its leaf. Each value
has the nested constellations that hold it; those of one stand together. `n` levels of nesting remain. -/
def nestSum : Nat → List (List Nat × FVal) → FVal
  | 0, l => (F.treeSum (l.map Prod.snd)).1
  | n + 1, l => (F.treeSum ((l.splitBy fun a b => !a.1.isEmpty && a.1.head? == b.1.head?).map fun g =>
      if g.all fun x => x.1.isEmpty then (F.treeSum (g.map Prod.snd)).1
      else nestSum n (g.map fun x => (x.1.tail, x.2)))).1

/-- R84, R85: the tree over the members' leaves, averaged in FP32, and converted once. -/
def reduceOrdered (fmt : Nat) (avg : Option Nat) (leaves : List (List Nat × FVal)) : Nat :=
  let t := nestSum ((leaves.map fun x => x.1.length).foldl max 0) leaves
  match avg with
  | none => (convOut fmt none false t).1
  | some n => if n = 0 then 0 else (convOut fmt none false (F.div t (FVal.ofInt n)).1).1

/-- INT32 leaves add modulo 2^32. -/
def reduceOrderedInt (avg : Option Nat) (leaves : List Nat) : Nat :=
  let v := leaves.foldl (· + ·) 0 % 2^32
  match avg with
  | none => v
  | some n => if n = 0 then 0 else ofInt 32 (intDiv (toInt 32 v) n)

/-! ### Join descriptors (R344, R345) -/

structure JoinD where
  opcode : Nat
  ordered : Bool
  average : Bool
  tallyEn : Bool
  fmtS : Nat
  fmtD : Nat
  mb : Nat
  coll : Nat
  root : Nat
  inst : Word
  tally : Nat
  tallyInc : Nat
  src : Nat
  dst : Nat
  offset : Nat
  count : Nat
  total : Nat
  cap : Nat
  extents : Nat
  tensor : Nat
  member : Nat
  rsvd : Bool
  deriving DecidableEq, Repr

def joinD (l : List Byte) : JoinD :=
  let b := fun i => fieldAt l i 1
  let w := fun i => fieldAt l i 4
  let op := b 0
  let a64 := fun i => fieldAt l i 8
  { opcode := op, ordered := bit (b 1) 0, average := bit (b 1) 1, tallyEn := bit (b 1) 2, fmtS := b 2 % 16, fmtD := b 2 / 16,
    mb := b 3, coll := fieldAt l 4 2 % 4096, root := fieldAt l 6 2, inst := BitVec.ofNat 32 (w 8), tally := w 12 % 2^27,
    tallyInc := b 60, src := a64 16 % 2^48, dst := a64 24 % 2^48, offset := w 32, count := w 36, total := w 40, cap := w 44,
    extents := a64 48 % 2^48, tensor := w 56, member := fieldAt l 62 2 % 4096,
    rsvd := decide (b 1 ≥ 16) || decide (fieldAt l 4 2 ≥ 4096) || decide (w 12 ≥ 2^27)
      || (!bit (w 12) 26 && bits (w 12) 25 14 != 0) || isJoinTally (w 12 % 2^14)
      || decide (a64 16 ≥ 2^48) || decide (a64 24 ≥ 2^48) || decide (a64 48 ≥ 2^48)
      || b 61 != 0 || decide (fieldAt l 62 2 ≥ 4096) }

def isReduction (op : Nat) : Bool := op == 1 || op == 2 || op == 6
def isExchange (op : Nat) : Bool := op == 7 || op == 8

/-- R348: does an operation accept its formats in the mode that applies. -/
def joinFmtOk (d : JoinD) (ordered : Bool) : Bool :=
  if d.opcode == 9 || isExchange d.opcode then true
  else
    decide (d.fmtS ≤ 8) && decide (d.fmtD ≤ 8)
    && (!isReduction d.opcode
      || (if ordered then (ffmtOf d.fmtD).isSome || d.fmtD == 8 else (arrivalType d.fmtD).isSome))

/-- Step 1 of R350. -/
def joinBad (d : JoinD) (forced : Bool) : Bool :=
  let bitsS := elemBits d.fmtS
  decide (d.opcode = 0) || decide (d.opcode > 9) || d.rsvd
  || !joinFmtOk d (d.ordered || forced)
  || d.src % 64 != 0 || d.dst % 64 != 0 || d.extents % 64 != 0
  || (if d.opcode = 4 ∨ d.opcode = 5 ∨ d.opcode = 6 then decide (d.root ≥ 4096)
      else if d.opcode = 7 then decide (d.root = 0) || decide (d.root > 8) else d.root != 0)
  || (d.opcode == 4 && d.member != d.root && d.count != 0)
  || (d.opcode == 9 && (d.count != 0 || d.total != 0))
  || (!isExchange d.opcode && d.extents != 0)
  || (isExchange d.opcode && d.total % 64 != 0)
  || (!(d.opcode == 5 || d.opcode == 6) && d.tensor != 0)
  || (!isExchange d.opcode && d.opcode != 9 && d.offset + d.count != d.total
      && (d.offset * bitsS % 512 != 0 || d.count * bitsS % 512 != 0))

/-- R337 in units of one element: the start and length of segment m of `total` over `n` members. -/
def segment (total n m : Nat) : Nat × Nat :=
  if n = 0 then (0, 0) else (m * (total / n) + min m (total % n), total / n + if m < total % n then 1 else 0)

/-- The elements that an operation delivers to a member. DEDUCED: log entry 72. -/
def resultRange (d : JoinD) (n : Nat) : Nat × Nat :=
  if d.opcode = 1 ∨ d.opcode = 3 ∨ d.opcode = 4 then (0, d.total)
  else if d.opcode = 2 then segment d.total n d.member
  else if d.opcode = 5 then (d.offset, d.count)
  else (0, 0)

def planColl (s : State) (id : Nat) : Option CollPlan :=
  match s.plan with
  | some p => p.collectives.find? fun c => c.id = id
  | none => none

def collMapping (s : State) (c : CollPlan) : Option MappingPlan :=
  match s.plan with
  | some p => (p.instances.find? fun i => i.id = c.inst).map (·.mapping)
  | none => none

def collOf (s : State) (id : Nat) : Coll := SMap.get {} s.router.colls id
def setColl (s : State) (id : Nat) (c : Coll) : State := { s with router := { s.router with colls := SMap.set s.router.colls id c } }

/-- The distance of a join's INSTANCE from the one that is open or opens next (R350, R189). -/
def instAhead (c : Coll) (i : Word) : Int := if c.started then (i - c.inst).toInt else 0

/-- R350: the check of a join of core k. -/
def joinCheck (s : State) (k : Nat) (d : JoinD) : Option (Status × Nat) :=
  if joinBad d s.dev.ordEff then some (.badDescriptor, 1)
  else
    match planColl s d.coll with
    | none => some (.outOfRange, 1)
    | some c =>
      let ok := match c.members[d.member]? with
        | some m => decide (s.ownId = some m.module.toNat) && decide (m.agent.val = k)
        | none => false
      let n := c.members.length
      if !ok || (d.opcode = 4 ∨ d.opcode = 5 ∨ d.opcode = 6) && decide (d.root ≥ n)
        || (!isExchange d.opcode && decide (d.offset + d.count > d.total)) || decide (d.total > 2^31)
        || (!isExchange d.opcode && decide ((resultRange d n).2 > d.cap)) then some (.outOfRange, 1)
      else if instAhead (collOf s d.coll) d.inst > 1 then some (.outOfRange, 9)
      else none

/-! ### Data, read and written for an agent core -/

/-- The page of an agent core's address that a tier holds, if its leaf says so (R162, R300). -/
def inTier (s : State) (k va : Nat) : Bool :=
  match leafAddr s (k / 8) (strCtx s k 0) va with
  | some (_, e) => decide (tierOf e ≥ 1) && decide (tierOf e ≤ 3)
  | none => false

/-- The first page of a range that a tier holds. -/
def tierPage (s : State) (k va n : Nat) : Option Nat :=
  if n = 0 ∨ s.fld .xltCtrl (k / 8) [] 0 0 = 0 then none
  else ((List.range ((va + n - 1) / 65536 - va / 65536 + 1)).map fun i => va / 65536 * 65536 + 65536 * i).find? (inTier s k)

/-- A transfer of the router that waits for a page: the fault is reported and resident firmware fills it (R162). -/
def routerFault (s : State) (k slot va : Nat) : State :=
  s.modCluster (k / 8) fun x => { x with faults := x.faults ++ [⟨k, 4, slot, strCtx s k 0, va, 1⟩] }

/-- How a transfer of the router ends that cannot go on: a line that R28 or R31 refuses is OUT_OF_RANGE, a translation
fault that nothing resolves FAULT_HALT (R350). -/
def stopStatus : StrStop → Status
  | .refused _ => .outOfRange
  | _ => .faultHalt

/-- Lines read for an agent core: their bytes, the poisoned ones, and the status that a line which failed gives.
DEDUCED: log entry 43. -/
def readVirt : Nat → State → Nat → Nat → Nat → State × List Byte × List Nat × Option Status
  | 0, s, _, _, _ => (s, [], [], none)
  | n + 1, s, k, va, i =>
    match strLoc s k 0 va (64 * i) false with
    | (s, .error e) => (s, [], [], some (stopStatus e))
    | (s, .ok l) =>
      let (s, b, p) := readLoc s l
      let (s, bs, ps, ok) := readVirt n s k va (i + 1)
      (s, b ++ bs, (if p then i :: ps else ps), ok)

/-- `n` bytes at an address of an agent core. -/
def readAgent (s : State) (k va n : Nat) : State × List Byte × List Nat × Option Status :=
  let (s, b, p, ok) := readVirt (ceilDiv n 64) s k va 0
  (s, b.take n, p, ok)

/-- Bytes written for an agent core, line by line from a line boundary, and the status that a line which failed gives. -/
def writeAgent : Nat → State → Nat → Nat → Nat → List Byte → List Nat → State × Option Status
  | 0, s, _, _, _, _, _ => (s, none)
  | n + 1, s, k, va, i, b, bad =>
    if b.isEmpty then (s, none)
    else
      match strLoc s k 0 va (64 * i) true with
      | (s, .error e) => (s, some (stopStatus e))
      | (s, .ok l) => writeAgent n (writeLoc s l (b.take 64) (bad.contains i)) k va (i + 1) (b.drop 64) bad

/-! ### Contributions (R346) -/

/-- Element i of the logical vector as a member contributes it, in the result format, with its poison. -/
def contribElem (c : Contrib) (i : Nat) : Option (Nat × Bool) :=
  let d := joinD c.desc
  let root := decide (d.opcode = 4) || decide (d.opcode = 5)
  let off := if root then 0 else d.offset
  let cnt := if root then d.total else d.count
  if off ≤ i ∧ i < off + cnt then
    let sp := elemSpan d.fmtS (i - off)
    if sp.1 + sp.2 ≤ c.data.length then
      let w := elemAt d.fmtS (fun j => c.data.getD j 0) (i - off)
      some ((convOut d.fmtD none false (elemVal d.fmtS w)).1,
        c.poison.contains (sp.1 / 64) || c.poison.contains ((sp.1 + sp.2 - 1) / 64))
    else none
  else none

/-- The elements of the result's line that holds element i. -/
def lineOf (fmt i : Nat) : Nat := (elemSpan fmt i).1 / 64

/-- R349: the count of a line of the result: MB_COUNT summed over what was reduced into it. -/
def lineCount (fmt total line : Nat) (cs : List Contrib) : Nat :=
  let per := ceilDiv 512 (elemBits fmt) + 1
  let lo := if fmt = 3 then 2 * (64 * line) / 3 - 1 else 64 * line * 8 / elemBits fmt
  let is := ((List.range (per + 2)).map (lo + ·)).filter fun i => decide (i < total) && lineOf fmt i == line
  (cs.filter fun c => is.any fun i => (contribElem c i).isSome).foldl (fun n c => n + (joinD c.desc).mb) 0

/-- One element of a reduction: the members by the constellations that hold them, what was gleaned and what is current,
in order of arrival. -/
def reduceElem (d : JoinD) (ordered : Bool) (ms : List (List Nat)) (gleaned cur : List Contrib) (i : Nat) : Nat × Bool :=
  let all := gleaned ++ cur
  let avg := if d.average then some (lineCount d.fmtD d.total (lineOf d.fmtD i) all) else none
  let got := all.filterMap fun c => contribElem c i
  let poison := got.any Prod.snd
  let of := fun (l : List Contrib) (m : Nat) => (l.find? fun c => c.member = m).bind fun c => (contribElem c i).map Prod.fst
  if !ordered then
    match arrivalType d.fmtD with
    | some ty => (reduceArrival d.fmtD ty avg (got.map Prod.fst), poison)
    | none => (0, poison)
  else if d.fmtD = 8 then (reduceOrderedInt avg (got.map Prod.fst), poison)
  else (reduceOrdered d.fmtD avg (ms.mapIdx fun m x => (x, leafOf d.fmtD (of gleaned m) (of cur m))), poison)

/-- R83, R353: what an instance has received, late data of the one before with it, in the order of arrival. -/
def arrivals (c : Coll) : List Contrib :=
  c.heard.filterMap fun h => (if h.1 then c.gleaned else c.cur).find? fun x => x.member = h.2

/-- What a reduction adds in: in ORDERED mode what was gleaned and what is current, each member by its index; in ARRIVAL
mode all of it in the order of arrival (R348). -/
def reduced (c : Coll) (d : JoinD) (ordered : Bool) : List Contrib × List Contrib :=
  if ordered || !isReduction d.opcode then (c.gleaned, c.cur) else ([], arrivals c)

/-- One element of what an operation delivers. -/
def resultElem (d : JoinD) (ordered : Bool) (ms : List (List Nat)) (gleaned cur : List Contrib) (i : Nat) : Nat × Bool :=
  if isReduction d.opcode then reduceElem d ordered ms gleaned cur i
  else if d.opcode = 3 then
    match (List.range ms.length).findSome? fun m => (cur.find? fun c => c.member = m).bind fun c => contribElem c i with
    | some e => e
    | none => (0, false)
  else
    match (cur.find? fun c => c.member = d.root).bind fun c => contribElem c i with
    | some e => e
    | none => (0, false)

/-- The poisoned lines of a packed row whose elements carry poison. DEDUCED: log entry 72. -/
def rowPoison (fmt : Nat) (es : List (Nat × Bool)) : List Nat :=
  ((es.mapIdx fun i e => if e.2 then
      let sp := elemSpan fmt i
      [sp.1 / 64, (sp.1 + sp.2 - 1) / 64] else []).flatten).eraseDups

/-! ### Completion (R344, R351) -/

/-- What a record says of the instance. -/
structure CollEnd where
  flags : Nat
  late : Nat
  gleanedIn : Nat
  cmin : Nat
  cmax : Nat
  deriving DecidableEq, Repr

def CollEnd.none : CollEnd := ⟨0, 0, 0, 0, 0⟩

def joinArea (k : Nat) : Nat := 0x8200FFC0000 + 2048 * k

/-- The completion record of the n-th join of a core, and its tally. -/
def joinRecord (s : State) (k n : Nat) (d : JoinD) (st : Status) (detail : Nat) (e : CollEnd) : State :=
  let b := leBytes 1 (statusCode st) ++ leBytes 1 detail ++ leBytes 1 d.opcode ++ leBytes 1 e.flags
    ++ leBytes 4 d.inst.toNat ++ leBytes 2 d.coll ++ leBytes 2 d.member ++ leBytes 2 e.late ++ leBytes 2 e.gleanedIn
    ++ leBytes 4 e.cmin ++ leBytes 4 e.cmax ++ leBytes 8 s.pst.now
  let s := s.write (joinArea k + 1024 + 32 * (n % 16)) b
  s.cplTally (k / 8) (if d.tallyEn then some (d.tally, d.tallyInc) else Option.none)

def joinEnd (s : State) (c : Contrib) (st : Status) (detail : Nat) (e : CollEnd) : State :=
  match c.agent with
  | some (k, n) => joinRecord s k n (joinD c.desc) st detail e
  | none => s

/-! ### Expert exchange (R339, R341) -/

/-- The first expert and the number of experts of member m. -/
def expertsOf (p : MappingPlan) (m : Nat) : Nat × Nat := if m < p.expertSpan then segment p.experts p.expertSpan m else (0, 0)

/-- A token's choice that an expert accepted: expert, source member, token and rank. -/
abbrev Routed := Nat × Nat × Nat × Nat

/-- C of R341. -/
def expertCap (p : MappingPlan) (tokens topK : Nat) : Nat :=
  match fp32.decode p.capFactor.toNat with
  | .fin false m e =>
    if p.experts = 0 then 0
    else if e ≥ 0 then ceilDiv (m * 2^e.toNat * tokens * topK) p.experts
    else ceilDiv (m * tokens * topK) (p.experts * 2^(-e).toNat)
  | _ => 0

/-- R341: the pairs accepted, in order, and the number skipped. -/
def route (p : MappingPlan) (cap : Nat) : List Routed → SMap Nat → List Routed × Nat
  | [], _ => ([], 0)
  | r :: t, used =>
    let u := SMap.get 0 used r.1
    if r.1 < p.experts ∧ u < cap then
      let (a, k) := route p cap t (SMap.set used r.1 (u + 1))
      (r :: a, k)
    else
      let (a, k) := route p cap t used
      (a, k + 1)

/-- Every (token, choice) pair in the order of R341. -/
def routePairs (topK n : Nat) (cur : List Contrib) : List Routed :=
  ((List.range topK).map fun r => ((List.range n).map fun m =>
    match cur.find? fun c => c.member = m with
    | some c => (List.range (joinD c.desc).count).map fun t => (fieldAt c.table (4 * (t * topK + r)) 2, m, t, r)
    | none => []).flatten).flatten

/-- A row of a contribution, and its poisoned lines. -/
def contribRow (cur : List Contrib) (m i bytes : Nat) : List Byte × List Nat :=
  match cur.find? fun c => c.member = m with
  | some c => ((c.data.drop (i * bytes)).take bytes,
      (List.range (bytes / 64)).filter fun l => c.poison.contains (i * bytes / 64 + l))
  | none => (List.replicate bytes 0, [])

/-- Rows laid one after another, with the poisoned lines of the whole. -/
def layRows (bytes : Nat) (rows : List (List Byte × List Nat)) : List Byte × List Nat :=
  ((rows.map Prod.fst).flatten, (rows.mapIdx fun i r => r.2.map (i * (bytes / 64) + ·)).flatten)

/-- The rows that a DISPATCH delivers to a member, grouped by its experts in increasing order. -/
def rowsFor (p : MappingPlan) (acc : List Routed) (m : Nat) : List Routed :=
  let (lo, n) := expertsOf p m
  ((List.range n).map fun i => acc.filter fun r => r.1 = lo + i).flatten

/-- The receive table: a row count for each local expert, then an origin tag for each row. -/
def receiveTable (p : MappingPlan) (acc : List Routed) (m : Nat) : List Byte :=
  let (lo, n) := expertsOf p m
  ((List.range n).map fun i => leBytes 4 (acc.filter fun r => r.1 = lo + i).length).flatten
  ++ ((rowsFor p acc m).map fun r => leBytes 8 (r.2.1 + r.2.2.1 * 2^12 + r.2.2.2 * 2^44)).flatten

/-- Bytes at an address that need not start a line, written without poison. -/
def writeAgentAt (s : State) (k va : Nat) (b : List Byte) : State × Option Status :=
  let o := va % 64
  let (s, old, p, ok) := readAgent s k (va - o) (o + b.length)
  if ok.isSome then (s, ok)
  else writeAgent (b.length / 64 + 3) s k (va - o) 0 (old.take o ++ b) p

/-! ### Delivery at the close -/

/-- The status of a join that received a result: what stopped its transfer, else POISON for a poisoned line, else OK
(R350, R351). -/
def gotStatus (stop : Option Status) (bad : List Nat) : Status := stop.getD (if bad.isEmpty then .ok else .poison)

/-- What a local member receives: its status, with the record's counts. -/
def deliver (s : State) (p : CollPlan) (ordered : Bool) (g cur : List Contrib) (mp : MappingPlan) (acc : List Routed)
    (skipped : Nat) (e : CollEnd) (c : Contrib) : State :=
  match c.agent with
  | none => s
  | some (k, _) =>
    let d := joinD c.desc
    let n := p.members.length
    if d.opcode = 7 then
      let rows := rowsFor mp acc c.member
      if rows.length > d.cap then joinEnd s c .outOfRange 1 e
      else
        let (b, bad) := layRows d.total (rows.map fun r => contribRow cur r.2.1 r.2.2.1 d.total)
        let (s, ok) := writeAgent (b.length / 64 + 1) s k d.dst 0 b bad
        let (s, ok2) := writeAgentAt s k (d.extents + 4 * d.root * d.count) (receiveTable mp acc c.member)
        let info := DispatchInfo.mk d.coll k d.extents d.count d.root (expertsOf mp c.member).2 rows.length
        let keep := s.router.dispatches.filter fun x => !(decide (x.core = k) && decide (x.extents = d.extents))
        let s := { s with router := { s.router with dispatches := keep ++ [info] } }
        joinEnd s c (gotStatus (ok <|> ok2) bad) 0 { e with cmin := rows.length, cmax := skipped }
    else if d.opcode = 8 then
      match s.router.dispatches.find? fun x => decide (x.core = k) && decide (x.extents = d.extents) with
      | none => joinEnd s c .outOfRange 1 e
      | some x =>
        let find := fun (t r : Nat) => cur.findSome? fun y =>
          ((List.range (y.table.length / 8)).find? fun i =>
            fieldAt y.table (8 * i) 8 == c.member + t * 2^12 + r * 2^44).map fun i => contribRow cur y.member i d.total
        let rows := ((List.range x.tokens).map fun t => (List.range x.topK).map fun r =>
          (find t r).getD (List.replicate d.total 0, [])).flatten
        if rows.length > d.cap then joinEnd s c .outOfRange 1 e
        else
          let (b, bad) := layRows d.total rows
          let (s, ok) := writeAgent (b.length / 64 + 1) s k d.dst 0 b bad
          joinEnd s c (gotStatus ok bad) 0 e
    else
      let (off, len) := resultRange d n
      let es := (List.range len).map fun i => resultElem d ordered (p.members.map (·.nest)) g cur (off + i)
      let b := packRow d.fmtD (es.map Prod.fst)
      let bad := rowPoison d.fmtD es
      let (s, ok) := writeAgent (b.length / 64 + 1) s k d.dst 0 b bad
      joinEnd s c (gotStatus ok bad) 0 e

/-- R346, R368: the reduced gradient of a tensor that this module owns, kept for its update. -/
def keepGrad (s : State) (d : JoinD) (es : List (Nat × Bool)) : State :=
  let g := Grad.mk d.inst.toNat d.fmtD (es.map Prod.fst) (es.any Prod.snd)
  { s with thresher := { s.thresher with shards := s.thresher.shards.map fun x =>
      if x.tensor = d.tensor then { x with grads := modAt (fun _ => some g) (d.inst.toNat % 2) x.grads } else x } }

/-! ### Opening and closing (R352, R353, R356) -/

/-- An instance opens: the COLL group's snapshot applies, and the mode is kept (R482). -/
def openInst (s : State) (id : Nat) : State :=
  let s := shadowApply s .coll
  let c := collOf s id
  setColl s id { c with isOpen := true, started := true, openAt := s.pst.up, forced := s.dev.ordEff }

def memberFenced (s : State) (p : CollPlan) (m : Nat) : Bool :=
  match p.members[m]? with
  | some x => s.fenced.contains x.module.toNat
  | none => false

def memberSlow (s : State) (p : CollPlan) (m : Nat) : Bool :=
  match p.members[m]? with
  | some x => s.router.slow.contains x.module.toNat
  | none => false

/-- Members for which a condition holds and that have not arrived. -/
def missing (p : CollPlan) (c : Coll) (need : Nat → Bool) : List Nat :=
  (List.range p.members.length).filter fun m => need m && !c.cur.any fun x => x.member = m

/-- Is the straggler policy of the collective's job TERVAR. -/
def isTervar (s : State) (p : CollPlan) : Bool :=
  match collMapping s p with
  | some m => m.tervar
  | none => false

/-- R352: DL of the next instance. -/
def deadlineOf (s : State) (p : CollPlan) (c : Coll) : Nat :=
  if p.deadlineMs ≠ 0 then p.deadlineMs * 10^6
  else if c.spans.isEmpty then
    (match collMapping s p with
      | some m => m.firstMs * 10^6
      | none => 10000 * 10^6)
  else
    let sorted := c.spans.mergeSort
    max (20 * 10^6) (2 * sorted.getD (ceilDiv c.spans.length 2 - 1) 0)

/-- A counter of R360, where this module holds the collective's reduction point. -/
def countColl (s : State) (p : CollPlan) (r : RegId) (n : Nat := 1) : State :=
  if p.point.isSome then s.incReg r 0 [] n else s

/-- What closing leaves: the history, the next instance, and what was held for it. -/
def afterClose (s : State) (p : CollPlan) (end_ : Status) (pat : Pattern) : State :=
  let c := collOf s p.id
  let spans := c.spans ++ [s.pst.up - c.openAt]
  let c := { c with
    isOpen := false, inst := c.inst + 1, cur := [], ahead := [], gleaned := [], heard := [], closed := c.closed + 1, lastEnd := end_
    spans := spans.drop (spans.length - 32)
    patterns := if p.step then (c.patterns ++ [pat]).drop (c.patterns.length - 1) else c.patterns }
  setColl (countColl s p .thrCollClosed) p.id c

/-- R348: do two descriptors of one instance disagree. -/
def mismatch (a b : JoinD) : Bool :=
  a.opcode != b.opcode || a.fmtS != b.fmtS || a.fmtD != b.fmtD || a.ordered != b.ordered || a.average != b.average
  || a.total != b.total || a.root != b.root || a.tensor != b.tensor

/-- The module of the root member, for an operation that has one. -/
def rootModule (p : CollPlan) (d : JoinD) : Option Nat := (p.members[d.root]?).map fun m => m.module.toNat

/-- Do all joins end with one status. -/
def endAll (s : State) (cur : List Contrib) (st : Status) (detail : Nat) (e : CollEnd) : State :=
  cur.foldl (fun s c => joinEnd s c st detail e) s

/-- The close of the open instance: what is late, gleaned or missing, and every join that arrived completes. -/
def closeInst (s : State) (p : CollPlan) (early deadline : Bool) : State :=
  let c := collOf s p.id
  let n := p.members.length
  let ahead := c.ahead
  let fenced := (List.range n).any (memberFenced s p)
  let late := missing p c fun m => !memberFenced s p m
  let fl := early.toNat + 2 * deadline.toNat
  let pat := Pattern.mk c.inst (c.gleaned.map (·.member)) []
  let s :=
    match c.cur.head? with
    | none => afterClose s p .ok pat
    | some h =>
      let d := joinD h.desc
      let ordered := (d.ordered || c.forced) && isReduction d.opcode
      let e := CollEnd.mk (fl + 4 * ordered.toNat) late.length c.gleaned.length 0 0
      if c.cur.any fun x => mismatch d (joinD x.desc) then
        afterClose (endAll s c.cur .badDescriptor 8 e) p .badDescriptor pat
      else if !p.step && fenced then
        afterClose (countColl (endAll s c.cur .fenced 0 e) p .thrCollTimeout) p .fenced pat
      else if !p.step && !late.isEmpty then
        afterClose (countColl (endAll s c.cur .timeout 0 e) p .thrCollTimeout) p .timeout pat
      else if d.total = 0 && c.cur.all fun x => (joinD x.desc).count = 0 then
        afterClose (endAll s c.cur .zero 0 e) p .zero pat
      else
        let mp := (collMapping s p).getD ⟨1, 1, 1, 0, 8, 2, 0, 1, false, 10000⟩
        let tokens := (c.cur.map fun x => (joinD x.desc).count).sum
        let (acc, skipped) := if d.opcode = 7 then
            route mp (expertCap mp tokens d.root) (routePairs d.root n c.cur) [] else ([], 0)
        let lines := if isReduction d.opcode then
            (List.range (ceilDiv (rowBytes d.fmtD d.total) 64)).map fun l => lineCount d.fmtD d.total l (c.gleaned ++ c.cur)
          else []
        let e := { e with cmin := lines.foldl min (lines.headD 0), cmax := lines.foldl max 0 }
        let s := if skipped = 0 then s else countColl s p .thrMoeOverflow skipped
        let (g, cs) := reduced c d ordered
        let s := c.cur.foldl (fun s x => deliver s p ordered g cs mp acc skipped e x) s
        let s := if d.opcode = 6 ∧ rootModule p d = s.ownId ∧ s.ownId.isSome then
            keepGrad s d ((List.range d.total).map (resultElem d ordered (p.members.map (·.nest)) g cs)) else s
        let s := if p.point.isSome then s.send (.collClosed p.id c.inst .ok) else s
        afterClose (if early then countColl s p .thrCollEarly else s) p .ok pat
  -- what was held for the next instance opens it at once
  if ahead.isEmpty then s
  else
    let s := openInst s p.id
    setColl s p.id { collOf s p.id with cur := ahead, heard := ahead.map fun x => (false, x.member) }

/-- R409: the instance waits while its root is fenced. -/
def rootFenced (s : State) (p : CollPlan) (c : Coll) : Bool :=
  match c.cur.head? with
  | some h =>
    let d := joinD h.desc
    (d.opcode == 5 || d.opcode == 6) && (match rootModule p d with
      | some m => s.fenced.contains m
      | none => false)
  | none => false

/-- R350: a page of a result that a tier holds must be filled before the instance can deliver. -/
def waitsForPage (s : State) (p : CollPlan) (c : Coll) : Option (Nat × Nat × Nat) :=
  c.cur.findSome? fun x => match x.agent with
    | some (k, n) =>
      let d := joinD x.desc
      (tierPage s k d.dst (rowBytes d.fmtD (resultRange d p.members.length).2)).map fun va => (k, n % 16, va)
    | none => none

/-- The close, unless a page must first be filled. -/
def tryClose (s : State) (p : CollPlan) (early deadline : Bool) : State :=
  match waitsForPage s p (collOf s p.id) with
  | some (k, slot, va) => routerFault s k slot va
  | none => closeInst s p early deadline

/-- R352: the instance closes when every unfenced member, or for STEP every member neither fenced nor slow, is there. -/
def closeIfDue (s : State) (p : CollPlan) : State :=
  let c := collOf s p.id
  if !c.isOpen || rootFenced s p c then s
  else if (missing p c fun m => !memberFenced s p m).isEmpty then tryClose s p false false
  else if p.step && !isTervar s p && (missing p c fun m => !memberFenced s p m && !memberSlow s p m).isEmpty then
    tryClose s p true false
  else s

/-! ### Arrivals -/

/-- R355: the homes of a micro-batch's records are asked to flag them; this module's own records are flagged here.
DEDUCED: log entry 67. -/
def flagSamples (s : State) (p : CollPlan) (flag : Nat) : State :=
  p.homes.foldl (fun s h =>
    if s.ownId = some h.1 then
      { s with insts := SMap.mapVals (fun i x => if i = p.inst then
          { x with store := x.store.map fun r =>
              if h.2.1 ≤ r.seq ∧ r.seq ≤ h.2.2 then { r with flags := r.flags ||| flag } else r } else x) s.insts }
    else s.send (.sampleFlags h.1 h.2.1 h.2.2 flag)) s

/-- R353: a contribution for an instance that has closed. -/
def lateArrive (s : State) (p : CollPlan) (x : Contrib) : State :=
  let c := collOf s p.id
  let d := joinD x.desc
  let one := decide (instAhead c d.inst = -1)
  if !p.step || isTervar s p then joinEnd s x (if one then c.lastEnd else .timeout) 0 .none
  else if one && !c.gleaned.any fun y => y.member = x.member then
    let s := setColl s p.id { c with gleaned := c.gleaned ++ [x], heard := c.heard ++ [(true, x.member)] }
    let s := if x.agent.isSome then flagSamples s p 4 else s
    joinEnd (countColl s p .thrCollGleaned) x .gleaned 0 .none
  else
    let c := { c with patterns := c.patterns.map fun y =>
      if y.inst = d.inst then { y with dropped := nsInsert x.member y.dropped } else y }
    let s := setColl s p.id c
    let s := if x.agent.isSome then flagSamples s p 8 else s
    joinEnd (countColl s p .thrCollDropped) x .dropped 0 .none

/-- R83, R348: in ARRIVAL mode a contribution is added into the addressable shared cache of the reduction point, at the
place that the plan gives, as it arrives. DESIGN CHOICE: log entry 123. -/
def pointAdd (s : State) (p : CollPlan) : State :=
  let c := collOf s p.id
  match p.point, c.cur.getLast? with
  | some cl, some x =>
    let d := joinD x.desc
    if !isReduction d.opcode || d.ordered || c.forced || (arrivalType d.fmtD).isNone
      || decide (p.pointOff + rowBytes d.fmtD d.total > s.cacheSize cl) then s
    else
      let es := (List.range d.total).map (reduceElem { d with average := false } false (p.members.map (·.nest)) [] (arrivals c))
      let bad := rowPoison d.fmtD es
      let b := packRow d.fmtD (es.map Prod.fst)
      let a := 0x81000000000 + cl.val * 2^26 + p.pointOff
      (List.range (ceilDiv b.length 64)).foldl (fun s l =>
        s.write (a + 64 * l) ((b.drop (64 * l)).take 64) (bad.contains l)) s
  | _, _ => s

/-- A contribution arrives: into the open instance, held for the next, or late. A second one of a member in an instance
is turned away. DEDUCED: log entry 70. -/
def arrive (s : State) (p : CollPlan) (x : Contrib) : State :=
  let d := joinD x.desc
  let c := collOf s p.id
  let c := if c.started then c else { c with inst := d.inst }
  let s := setColl s p.id c
  let ahead := instAhead c d.inst
  if ahead < 0 then lateArrive s p x
  else if ahead > 0 then
    if c.ahead.any fun y => y.member = x.member then joinEnd s x .badDescriptor 8 .none
    else setColl s p.id { c with ahead := c.ahead ++ [x] }
  else
    if c.isOpen && c.cur.any fun y => y.member = x.member then joinEnd s x .badDescriptor 8 .none
    else
      let s := if c.isOpen then s else openInst s p.id
      let c := collOf s p.id
      pointAdd (setColl s p.id { c with cur := c.cur ++ [x], heard := c.heard ++ [(false, x.member)] }) p

def remoteContrib (j : RemoteJoin) : Contrib := ⟨j.member, j.desc, j.data, j.poisonedLines, j.table, none⟩

def arriveRemote (p : CollPlan) (s : State) (j : RemoteJoin) : State :=
  if memberFenced s p j.member then s else arrive s p (remoteContrib j)

/-- The shard of a tensor that this module owns. -/
def ownShard (s : State) (t : Nat) : Option Shard := s.thresher.shards.find? fun x => x.tensor = t

/-- R388: what holds a join before it is taken: an update two steps behind, or a flip that a SCATTER waits for. -/
def joinHeld (s : State) (d : JoinD) : Bool :=
  match ownShard s d.tensor with
  | none => false
  | some x =>
    let open_ := fun (t : Nat) => (x.grads.any fun g => match g with
        | some g => decide (g.step = t)
        | none => false)
    if d.opcode = 6 then decide (d.inst.toNat ≥ 2) && open_ (d.inst.toNat - 2)
    else if d.opcode = 5 then x.grads.any Option.isSome
    else false

/-- The data of a join: the bytes at SRC, the master of an owned tensor for a SCATTER's root, or nothing; with the
poisoned lines, the routing table or tags, and the status that a line which could not be read gives. -/
def joinData (s : State) (k : Nat) (d : JoinD) : State × List Byte × List Nat × List Byte × Option Status :=
  if d.opcode = 7 then
    let (s, b, p, ok) := readAgent s k d.src (d.count * d.total)
    let (s, t, _, ok2) := readAgent s k d.extents (4 * d.root * d.count)
    (s, b, p, t, ok <|> ok2)
  else if d.opcode = 8 then
    let (s, b, p, ok) := readAgent s k d.src (d.count * d.total)
    match s.router.dispatches.find? fun x => decide (x.core = k) && decide (x.extents = d.extents) with
    | none => (s, b, p, [], ok)
    | some x =>
      let o := 4 * x.topK * x.tokens + 4 * x.experts
      let (s, t, _, ok2) := readAgent s k d.extents (o + 8 * x.rows)
      (s, b, p, t.drop o, ok <|> ok2)
  else if d.opcode = 9 || (d.opcode = 5 && d.member != d.root) then (s, [], [], [], none)
  else
    match (if d.opcode = 5 then ownShard s d.tensor else none) with
    | some x =>
      let h := x.halves.getD (x.epoch.toNat % 2) {}
      (s, packRow d.fmtS (h.master.map fun w => (convOut d.fmtS none false (fp32.decode w.toNat)).1),
        if x.poison then [0] else [], [], none)
    | none =>
      let n := if d.opcode = 4 ∨ d.opcode = 5 then (if d.member = d.root then d.total else 0) else d.count
      let (s, b, p, ok) := readAgent s k d.src (rowBytes d.fmtS n)
      (s, b, p, [], ok)

/-- The bytes that a join reads at SRC. -/
def joinBytes (d : JoinD) : Nat :=
  if isExchange d.opcode then d.count * d.total
  else if d.opcode = 9 || (d.opcode = 5 && (d.member != d.root || d.tensor != 0)) then 0
  else rowBytes d.fmtS (if d.opcode = 4 ∨ d.opcode = 5 then (if d.member = d.root then d.total else 0) else d.count)

/-- R344: the router reads the next slot of a core whose join tally has risen, and takes the join if it is of the
row's operation or of none; a module that has failed joins nothing (R406). DEDUCED: log entry 70. -/
def routerTake (op : Nat) (s : State) (k : Nat) : State :=
  let n := SMap.get 0 s.router.taken k
  let t := s.tally (1024 * (k / 8) + 1016 + k % 8)
  if !s.on || s.dev.mode == .failed || (t - BitVec.ofNat 32 n).toInt ≤ 0 then s
  else
    let desc := s.bytes (joinArea k + 64 * (n % 16)) 64
    let d := joinD desc
    if d.opcode ≠ op ∧ 1 ≤ d.opcode ∧ d.opcode ≤ 9 then s
    else
      let took := fun (s : State) => { s with router := { s.router with taken := SMap.set s.router.taken k (n + 1) } }
      match joinCheck s k d with
      | some (st, detail) => joinRecord (took s) k n d st detail .none
      | none =>
        match planColl s d.coll with
        | none => s
        | some p =>
          if joinHeld s d then s
          else
            match tierPage s k d.src (joinBytes d) with
            | some va => routerFault s k (n % 16) va
            | none =>
              let s := took s
              let (s, b, bad, table, stop) := joinData s k d
              match stop with
              | some st => joinRecord s k n d st 0 .none
              | none => arrive s p ⟨d.member, desc, b, bad, table, some (k, n)⟩

def execAllreduce (k : CoreIx) (s : State) : Host.Outcome State Fault Refusal := .next (routerTake 1 s k)
def execReduceScatter (k : CoreIx) (s : State) : Host.Outcome State Fault Refusal := .next (routerTake 2 s k)
def execAllgather (k : CoreIx) (s : State) : Host.Outcome State Fault Refusal := .next (routerTake 3 s k)
def execBroadcast (k : CoreIx) (s : State) : Host.Outcome State Fault Refusal := .next (routerTake 4 s k)
def execScatter (k : CoreIx) (s : State) : Host.Outcome State Fault Refusal := .next (routerTake 5 s k)
def execReduceToOwner (k : CoreIx) (s : State) : Host.Outcome State Fault Refusal := .next (routerTake 6 s k)
def execDispatch (k : CoreIx) (s : State) : Host.Outcome State Fault Refusal := .next (routerTake 7 s k)
def execCombine (k : CoreIx) (s : State) : Host.Outcome State Fault Refusal := .next (routerTake 8 s k)
def execBarrier (k : CoreIx) (s : State) : Host.Outcome State Fault Refusal := .next (routerTake 9 s k)

/-- The contributions of members on other modules have arrived; the instance closes if it is due. -/
def instanceClose (s : State) (id : Nat) (remote : List RemoteJoin) : State :=
  match planColl s id with
  | none => s
  | some p => closeIfDue (remote.foldl (arriveRemote p) s) p

def execInstanceClose (coll : BitVec 12) (remote : List RemoteJoin) (s : State) : Host.Outcome State Fault Refusal :=
  powered s (instanceClose s coll.toNat remote)

/-- R352, R356: the deadline; under TERVAR there is none. -/
def collDeadline (s : State) (id : Nat) (remote : List RemoteJoin) : State :=
  match planColl s id with
  | none => s
  | some p =>
    let s := closeIfDue (remote.foldl (arriveRemote p) s) p
    let c := collOf s id
    if !c.isOpen || isTervar s p || rootFenced s p c || decide (s.pst.up < c.openAt + deadlineOf s p c) then s
    else tryClose s p false true

def execCollectiveDeadline (coll : BitVec 12) (remote : List RemoteJoin) (s : State) : Host.Outcome State Fault Refusal :=
  powered s (collDeadline s coll.toNat remote)

/-- R353: data of a member on another module arrives after the close of its instance. -/
def execLateContribution (coll : BitVec 12) (inst : Word) (j : RemoteJoin) (s : State) : Host.Outcome State Fault Refusal :=
  powered s <|
    match planColl s coll.toNat with
    | none => s
    | some p =>
      if (joinD j.desc).inst = inst ∧ instAhead (collOf s p.id) inst < 0 ∧ memberFenced s p j.member = false then
        lateArrive s p (remoteContrib j)
      else s

/-- R357: a slow-member notice marks or unmarks a module. -/
def slowMark (s : State) (m : Nat) (state : Byte) : State :=
  if s.fenced.contains m then s
  else { s with router := { s.router with slow := if state = 1 then nsInsert m s.router.slow else
      (if state = 0 then nsErase m s.router.slow else s.router.slow) } }

def execSlowMemberNotice (module : ModuleId) (state _reason : Byte) (_time : DWord) (s : State) :
    Host.Outcome State Fault Refusal :=
  powered s (slowMark s module.toNat state)

end Sys2Proof.Machine
end

