-- ==== Sys2Proof/Machine/Constellation.lean ====
section
/-! DEFINITION. The completion of a constellation (R14 to R18). -/

namespace Sys2Proof.Machine

/-- R16: the status of a constellation and the index of the member whose status it is: the lowest-indexed member whose
status is neither OK nor ZERO; else the first that completed with OK; else ZERO, of member 0. -/
def consStatus (l : List Status) : Status × Nat :=
  match l.findIdx? fun x => x != .ok && x != .zero with
  | some i => (l.getD i .ok, i)
  | none => match l.findIdx? (· == .ok) with
    | some i => (.ok, i)
    | none => (.zero, 0)

/-- The members that the plan gives a constellation (R15). DEDUCED: log entry 61. -/
def consMembers (s : State) (id : Nat) : Option Nat :=
  s.plan.bind fun p => (p.constellations.find? fun c => c.id = id).map (·.members)

/-- What a core of the descriptor's kind reports of it: bytes 2 and 3 of its record, where the descriptor gives them, and
its tally (R54, R136, R157). -/
def consKeeps (s : State) : ConsDesc → Nat × Nat × Option (Nat × Nat)
  | .tile l => ((Config.freeByte s.freeCtr 0).toNat, (Config.freeByte s.freeCtr 1).toNat, (tileD l).tally)
  | .vector l => ((Config.freeByte s.freeCtr 0).toNat % 32, (vecD l).opcode, (vecD l).tally)
  | .stream l => ((strD l).opcode, (strD l).flags, strTally (strD l))

/-- Bytes 10 to 15 of the record: a vector record has none reserved there, the others the last four. -/
def consCounts (s : State) (d : ConsDesc) : List Byte :=
  let f := fun n => (List.range n).map fun i => Config.freeByte s.freeCtr (2 + i)
  match d with
  | .vector _ => f 6
  | _ => f 2 ++ leBytes 4 0

/-- R14, R16: the record of a constellation, in the format of a core: STATUS, DETAIL and MEMBER of the member that gave
the status, the descriptor's own fields, SEQ and TIME. What no rule says how to combine over the members is free.
DESIGN CHOICE: log entry 61. -/
def consRecord (s : State) (d : ConsDesc) (seq : Word) (st : Status) (detail member : Nat) : List Byte :=
  let (b2, b3, _) := consKeeps s d
  leBytes 1 (statusCode st) ++ leBytes 1 detail ++ leBytes 1 b2 ++ leBytes 1 b3 ++ leBytes 4 seq.toNat ++ leBytes 2 member
  ++ consCounts s d ++ ((List.range 6).map fun i => Config.freeByte s.freeCtr (8 + i)) ++ leBytes 2 0 ++ leBytes 8 s.pst.now

/-- R16, R17: once every member has written its record, the constellation writes its own, and then applies the tally that
the descriptor names, as a core does. DEDUCED: log entry 61. -/
def constellationComplete (s : State) (id : Nat) (d : ConsDesc) (seq : Word) (members : List (Option (List Byte))) : State :=
  let done := members.filterMap fun x => x
  if consMembers s id ≠ some members.length ∨ done.length ≠ members.length then s
  else
    let (st, i) := consStatus (done.map fun r => statusOfCode (fieldAt r 0 1))
    let detail := fieldAt (done.getD i []) 1 1
    let (_, _, tally) := consKeeps s d
    ({ s with freeCtr := s.freeCtr + 1 }.send (.consRecord id (consRecord s d seq st detail i))).cplTally 0 tally

def execConstellationComplete (id : Nat) (d : ConsDesc) (seq : Word) (members : List (Option (List Byte))) (s : State) :
    Host.Outcome State Fault Refusal := powered s (constellationComplete s id d seq members)

end Sys2Proof.Machine
end

