-- ==== Sys2Proof/Machine/Polestar.lean ====
section
/-! DEFINITION. The Polestar counter and the PPS input (R497 to R503). -/

namespace Sys2Proof.Machine

/-- R498: the offset of an edge: the counter minus the nearest whole second, from −500,000,000 to 499,999,999. -/
def ppsOffset (now : Nat) : Int :=
  let r : Nat := now % 10^9
  if r < 500000000 then (r : Int) else (r : Int) - 10^9

/-- R498: the interval to the pulse seen before, when there is one to test. -/
def ppsGlitch (p : Pst) : Bool :=
  match p.lastPulse with
  | none => false
  | some t =>
    let d : Int := (p.now : Int) - t
    decide (d < 999000000) || decide (d > 1001000000)

/-- R501: the armed value takes effect. -/
def setTai (s : State) (state : PstState) (ppsAt : Option Nat) : State :=
  let sec := s.reg .pstSetSec
  let old := s.pst.now
  let new := sec.toNat * 10^9
  let s := { s with pst := { s.pst with now := new, state := state, isSet := true, armed := false, run := [], slew := 0,
                                        lastAccept := if ppsAt.isSome then some new else s.pst.lastAccept.map fun t => new - (old - t) } }
  s.record 0x0052 0x0F 0 (leBytes 8 old ++ leBytes 4 sec.toNat)

/-- R499: consistency of a run of offsets. -/
def ppsConsistent (run : List Int) (o : Int) : Bool := run.all fun x => decide ((x - o).natAbs ≤ 1000)

/-- R499: an accepted pulse slews or, at the third consistent one, steps the counter. DEDUCED: log entry 101. -/
def ppsAct (s : State) (o : Int) : State :=
  if o.natAbs < 1000 then
    { s with pst := { s.pst with slew := -o, slewTicks := 0, run := [], state := .locked } }
  else
    let run := if ppsConsistent s.pst.run o then s.pst.run ++ [o] else [o]
    if run.length < 3 then { s with pst := { s.pst with run := run, state := .stepPending } }
    else
      let old := s.pst.now
      let new := ((old : Int) - o).toNat
      let s := { s with pst := { s.pst with now := new, run := [], slew := 0, state := .locked, lastAccept := some new } }
      (s.incReg .pstSteps).record 0x0051 0x0F 0 (leBytes 4 (ofInt 32 o) ++ leBytes 8 old)

/-- R498 to R501: a PPS edge. -/
def ppsPulse (s : State) : State :=
  let glitch := ppsGlitch s.pst
  let now := s.pst.now
  let s := { s with pst := { s.pst with lastPulse := some now } }
  if glitch then s.incReg .pstGlitch
  else
    let o := ppsOffset now
    let s := { s with pst := { s.pst with ppsSeen := true, offset := o, lastAccept := some now } }.incReg .pstPulses
    if s.pst.armed then setTai s .locked (some now) else ppsAct s o

def execPpsPulse (s : State) : Host.Outcome State Fault Refusal := powered s (ppsPulse s)

/-- R500: no pulse accepted for 1,500 ms. A counter that has never been trimmed stays FREE.
DESIGN CHOICE: log entry 102. -/
def ppsHoldover (s : State) : State :=
  match s.pst.lastAccept with
  | none => s
  | some t =>
    if s.pst.state = .holdover ∨ s.pst.now < t + 1500000000 then s
    else
      let s := { s with pst := { s.pst with state := .holdover, lastPulse := none, run := [], slew := 0 } }
      (s.incReg .pstHoldover).record 0x0053 0x0F 0 (leBytes 4 (ofInt 32 s.pst.offset))

def execPpsHoldover (s : State) : Host.Outcome State Fault Refusal := powered s (ppsHoldover s)

/-- R501, R503: ARM. -/
def pstArm (s : State) : State := { s with pst := { s.pst with armed := true, armedAt := s.pst.up } }

def execPstArm (s : State) : Host.Outcome State Fault Refusal := powered s (pstArm s)

/-- R501: with no pulse within 1,500 ms of arming, the value takes effect at the next whole second. -/
def execTaiSetFallback (s : State) : Host.Outcome State Fault Refusal :=
  powered s (if s.pst.armed ∧ s.pst.up ≥ s.pst.armedAt + 1500000000 then
    setTai s (if s.pst.state = .stepPending then .locked else s.pst.state) none else s)

/-- R497: a read of PST_NOW_LO takes the snapshot. -/
def pstNowRead (s : State) : State × Word :=
  ({ s with pst := { s.pst with snap := BitVec.ofNat 32 (s.pst.now / 2^32) } }, BitVec.ofNat 32 s.pst.now)

def execPstNowRead (s : State) : Host.Outcome State Fault Refusal :=
  powered s (let r := pstNowRead s; r.1.send (.bus r.2))

/-- R501: the "Polestar TAI seconds" effecter loads PST_SET_SEC and arms it. -/
def pldmSetTai (s : State) (sec : Word) : State := pstArm (s.setReg .pstSetSec 0 [] sec)

def execPldmSetTai (sec : Word) (s : State) : Host.Outcome State Fault Refusal := powered s (pldmSetTai s sec)

end Sys2Proof.Machine
end

