-- ==== Sys2Proof/Machine/Ports.lean ====
section
/-! DEFINITION. Furrow links, Ethernet, PCIe and NVMe, and the management interfaces (R449 to R464). -/

namespace Sys2Proof.Machine

/-! ### Furrow flits (R452 to R456) -/

def linkRuns (l : Link) : Bool := l.state == .up || l.state == .degraded

/-- A sequence number of 24 bits. -/
def seq24 (n : Nat) : Nat := n % 2^24

/-- How far a sequence number lies behind another, modulo 2^24. -/
def behind24 (a b : Nat) : Nat := seq24 (b + 2^24 - seq24 a)

/-- The bytes of a flit (R452). -/
def flitBytes (seq kind ack cls : Nat) (payload : List Byte) : List Byte :=
  let b := leBytes 3 seq ++ leBytes 1 kind ++ leBytes 3 ack ++ leBytes 1 cls
    ++ (payload ++ List.replicate 496 0).take 496
  b ++ leBytes 8 (crc64 b)

/-- A flit sent on a group that runs: it stays in the replay buffer until it is acknowledged; while that buffer is full
it waits. DEDUCED: log entry 94. -/
def sendFlit (s : State) (g kind cls : Nat) (payload : List Byte) : State :=
  let l := s.link g
  if !linkRuns l then s
  else if l.replay.length ≥ 4096 then s.modLink g fun l => { l with wait := l.wait ++ [(kind, cls, payload)] }
  else
    let b := flitBytes l.txNext kind (seq24 (l.rxNext + 2^24 - 1)) cls payload
    (s.modLink g fun l => { l with
      txNext := seq24 (l.txNext + 1)
      replay := l.replay ++ [(l.txNext, b)]
      ackDue := false
      lastProgress := if l.replay.isEmpty then s.pst.up else l.lastProgress }).send (.flit g b)

/-- What waits for the replay buffer is sent, CONTROL first (R453), as far as there is room. -/
def sendWaiting (s : State) (g : Nat) : State :=
  match (s.link g).wait with
  | [] => s
  | w => ((w.filter fun f => f.2.1 == 2) ++ w.filter fun f => f.2.1 != 2).foldl (fun s f => sendFlit s g f.1 f.2.1 f.2.2)
    (s.modLink g fun l => { l with wait := [] })

/-- The unacknowledged flits sent again, from one of them onward. -/
def resend (s : State) (g : Nat) (from_ : Nat) : State :=
  ((s.link g).replay.drop from_).foldl (fun s f => s.send (.flit g f.2)) s

/-- Events of the last `ns` nanoseconds, and this one. -/
def recent (s : State) (ns : Nat) (l : List Nat) : List Nat := (l.filter fun t => decide (s.pst.up < t + ns)) ++ [s.pst.up]

/-- A retrain counted for the LINK risk (R390). DEDUCED: log entry 95. -/
def noteRetrain (s : State) : State :=
  { s with nwt := { s.nwt with
    linkTimes := (s.nwt.linkTimes.filter fun t => decide (s.pst.now < t + 600 * 10^9)) ++ [s.pst.now] } }

/-- A group that runs goes back to TRAINING; what is unacknowledged is kept (R456). -/
def retrain (s : State) (g : Nat) : State :=
  if !linkRuns (s.link g) then s
  else
    let s := s.modLink g fun l => { l with
      state := .training, lanes := 0, gen := 0, trainings := l.trainings + 1, trainedAt := s.pst.up, stuck := 0 }
    noteRetrain (s.incReg .frwGrpRetrain 0 [g])

/-- A replay from one of the unacknowledged flits: the sixteenth of the same flit without progress retrains (R454). -/
def replayFrom (s : State) (g : Nat) (from_ : Nat) : State :=
  let s := s.incReg .frwGrpReplay 0 [g]
  let s := s.modLink g fun l => { l with stuck := l.stuck + 1, lastProgress := s.pst.up }
  let s := resend s g from_
  if (s.link g).stuck ≥ 16 then retrain s g else s

/-- An acknowledgement: the flits up to the one it names leave the replay buffer. -/
def takeAck (s : State) (g ack : Nat) : State :=
  sendWaiting (s.modLink g fun l =>
    let left := l.replay.filter fun f => decide (2^23 ≤ behind24 f.1 ack)
    if left.length < l.replay.length then { l with replay := left, stuck := 0, lastProgress := s.pst.up } else l) g

/-- A heartbeat record (R455): bytes 8 to 23 of the payload. -/
def takeHeartbeat (s : State) (g : Nat) (b : List Byte) : State :=
  s.modLink g fun l => { l with
    hbAt := some s.pst.up, hbMiss := 0, hbFirstMiss := none
    hbModule := BitVec.ofNat 16 (fieldAt b 16 2), hbRisk := BitVec.ofNat 8 (fieldAt b 19 1)
    hbState := BitVec.ofNat 8 (fieldAt b 20 1) }

/-- R454: a flit that arrives on a group. DEDUCED: log entry 94. -/
def flitReceive (s : State) (g : Nat) (f : Flit) : State :=
  let l := s.link g
  let b := f.bytes
  if !linkRuns l || b.length ≠ 512 then s
  else if fieldAt b 504 8 ≠ crc64 (b.take 504) then
    (s.incReg .frwGrpCrc 0 [g]).send (.nak g l.rxNext)
  else
    let seq := fieldAt b 0 3
    let kind := fieldAt b 3 1
    let ack := fieldAt b 4 3
    if kind = 3 then
      let s := takeAck s g ack
      match f.nak with
      | some n => match (s.link g).replay.findIdx? fun x => x.1 = seq24 n with
        | some i => replayFrom s g i
        | none => s
      | none => s
    else if seq = l.rxNext then
      let s := (takeAck s g ack).modLink g fun l => { l with rxNext := seq24 (l.rxNext + 1), ackDue := true }
      if kind = 2 then takeHeartbeat s g b else s
    else if behind24 seq l.rxNext ≤ 2^22 then
      (takeAck s g ack).modLink g fun l => { l with ackDue := true }
    else retrain s g

def execFlitReceive (g : PortIx) (f : Flit) (s : State) : Host.Outcome State Fault Refusal := powered s (flitReceive s g f)

/-- R454: acknowledgements have made no progress for 2 µs. -/
def execReplayTimeout (g : PortIx) (s : State) : Host.Outcome State Fault Refusal :=
  powered s (
    let l := s.link g
    if linkRuns l && !l.replay.isEmpty && decide (s.pst.up ≥ l.lastProgress + 2000) then replayFrom s g 0 else s)

/-- R454: an acknowledgement is due. -/
def execAckTick (g : PortIx) (s : State) : Host.Outcome State Fault Refusal :=
  powered s (
    let l := s.link g
    if linkRuns l && l.ackDue then
      (s.modLink g fun l => { l with ackDue := false }).send (.ack g (seq24 (l.rxNext + 2^24 - 1)))
    else s)

/-! ### Training (R451, R456) -/

def groupUsable (s : State) (g : Nat) : Bool := !s.dev.fallow.furrow.getLsbD g && !s.dev.pend.furrow.getLsbD g

/-- R456: a DOWN group trains at the start, or 1 s after its last failed training. -/
def execTrainingStart (g : PortIx) (s : State) : Host.Outcome State Fault Refusal :=
  powered s (
    let l := s.link g
    let due := match l.lastFail with
      | some t => decide (s.pst.up ≥ t + 10^9)
      | none => true
    if s.dev.started && l.state == .down && groupUsable s g && due then
      s.modLink g fun l => { l with state := .training, trainings := l.trainings + 1, trainedAt := s.pst.up }
    else s)

/-- The set bits of a lane mask. -/
def laneCount (b : BitVec 8) : Nat := ((List.range 8).filter b.getLsbD).length

/-- A training that fails: DOWN, and after the third within 60 s the group is pending fallow. -/
def trainingFails (s : State) (g : Nat) (lanes : BitVec 8) : State :=
  let fails := recent s (60 * 10^9) (s.link g).fails
  let s := (s.modLink g fun l => { l with
    state := .down, lanes := lanes, gen := 0, lastFail := some s.pst.up, fails := fails }).incReg .frwGrpRetrain 0 [g]
  if fails.length ≥ 3 then setPend s { s.dev.pend with furrow := s.dev.pend.furrow ||| BitVec.ofNat 8 (2^g) } else s

/-- The end of a training: the state by its good lanes, and what is unacknowledged replayed. -/
def trainingEnd (s : State) (g : Nat) (lanes : BitVec 8) (farGen1 : Bool) (peer : Nat) : State :=
  let l := s.link g
  if l.state != .training then s
  else if laneCount lanes < 4 ∨ s.pst.up > l.trainedAt + 30 * 10^6 then trainingFails s g lanes
  else
    let gen := if farGen1 || s.fld .frwCtrl 0 [] 0 0 == 1 then 1 else 2
    let s := s.modLink g fun l => { l with
      state := if laneCount lanes = 8 then .up else .degraded
      lanes := lanes, gen := gen, peer := some peer, trainedAt := s.pst.up, stuck := 0, lastProgress := s.pst.up }
    resend { s with nwt := { s.nwt with relays := nsErase peer s.nwt.relays } } g 0

def execTrainingEnd (g : PortIx) (lanes : BitVec 8) (farGen1 : Bool) (peer : Fin 9) (s : State) :
    Host.Outcome State Fault Refusal := powered s (trainingEnd s g lanes farGen1 peer)

/-- R456: a lane that a running group uses loses lock. -/
def execLaneLockLoss (g lane : PortIx) (s : State) : Host.Outcome State Fault Refusal :=
  powered s (if (s.link g).lanes.getLsbD lane then retrain s g else s)

/-! ### Classes of Ethernet traffic, and the spread of queue pairs (R458, R459) -/

/-- The classes of traffic. -/
inductive TrafficClass where
  | control | fabric | service
  deriving DecidableEq, Repr

/-- R458: the DSCP and the 802.1Q priority of a class. -/
def classDscp : TrafficClass → Nat
  | .control => 48 | .fabric => 26 | .service => 0
def classPriority : TrafficClass → Nat
  | .control => 6 | .fabric => 3 | .service => 0

/-- R458: the class of received traffic by its DSCP. -/
def dscpClass (d : Nat) : TrafficClass := if d = 48 then .control else if d = 26 then .fabric else .service

/-- R458: the class of what leaves over Ethernet; none for what leaves on the device's own pins, over the furrow alone,
or inside the module. DEDUCED: log entry 132. -/
def outClass : Out → Option TrafficClass
  | .remoteTally .. | .tallyReport .. | .watchRefused .. | .sheafHeartbeat .. | .fenceNotice .. | .suspicion ..
  | .slowNotice .. | .riskReport .. | .sheafRisk .. => some .control
  | .peerWrite .. | .peerAtomic .. | .collClosed .. | .shard .. => some .fabric
  | .message .. | .close .. | .refuseConn .. | .accessNak .. | .bulkWrite .. => some .service
  | .bus .. | .ownFailure | .spi .. | .memberStatus .. | .consRecord .. | .flit .. | .nak .. | .ack .. | .beacon ..
  | .pldm .. | .pldmVerify .. | .forward .. | .forwardAnswer .. | .slotRecord .. | .sequenceFault .. | .adapterImage ..
  | .cancelNotice .. | .stepList .. | .sampleFlags .. | .journal .. | .journalAck .. | .secure .. | .ready ..
  | .turnCommit .. | .turnForced .. | .eclipse | .resume | .takenOver .. | .tierRead .. | .nvmeWrite ..
  | .jobMove .. | .rewarded .. | .learning .. => none

/-- What an Ethernet frame of the device carries in DSCP and in 802.1Q priority. -/
def outMark (o : Out) : Option (Nat × Nat) := (outClass o).map fun c => (classDscp c, classPriority c)

/-- R458, R459: the port that carries an RC queue pair: from the one that its hash names, the first that is UP. A port that
is lost passes its queue pairs on, and no other queue pair moves. DESIGN CHOICE: log entry 132. -/
def queuePairPort (s : State) (qp : Nat) : Option Nat :=
  ((List.range 8).map fun j => (Config.queuePairHash qp + j) % 8).find? fun p => (s.ethPort p).up

/-! ### Ethernet, PCIe and NVMe (R457 to R461) -/

def ethUsable (s : State) (p : Nat) : Bool :=
  s.dev.started && (s.ethPort p).mode != 0 && !s.dev.fallow.eth.getLsbD p && !s.dev.pend.eth.getLsbD p

/-- R459: a port loses link; the third loss within 60 s marks it pending fallow. DEDUCED: log entry 95. -/
def ethLinkLoss (s : State) (p : Nat) : State :=
  if !(s.ethPort p).up then s
  else
    let fails := recent s (60 * 10^9) (s.ethPort p).fails
    let s := noteRetrain (s.modEth p fun x => { x with up := false, fails := fails })
    if fails.length ≥ 3 then setPend s { s.dev.pend with eth := s.dev.pend.eth ||| BitVec.ofNat 8 (2^p) } else s

def execEthLinkLoss (p : PortIx) (s : State) : Host.Outcome State Fault Refusal := powered s (ethLinkLoss s p)

/-- R459: a port's link comes up, at the start or again. -/
def execEthLinkUp (p : PortIx) (s : State) : Host.Outcome State Fault Refusal :=
  powered s (if ethUsable s p then s.modEth p fun x => { x with up := true } else s)

def driveOn (s : State) (port link : Nat) : Bool := (s.pciPort port).drive.getD link false

/-- Does the module use any NVMe drive. -/
def anyDrive (s : State) : Bool := (List.range 4).any fun p => driveOn s p 0 || driveOn s p 1

/-- R461: a command times out: aborted and retried once, and after the third within 60 s the controller is reset. -/
def nvmeTimeout (s : State) (port link : Nat) : State :=
  if !driveOn s port link then s
  else
    let times := recent s (60 * 10^9) ((s.pciPort port).timeouts.getD link [])
    let reset := decide (times.length ≥ 3)
    (s.incReg .pciPortTimeout 0 [port]).modPci port fun x => { x with
      timeouts := modAt (fun _ => if reset then [] else times) link x.timeouts
      resetting := if reset then modAt (fun _ => true) link x.resetting else x.resetting }

def execNvmeTimeout (port : UnitIx) (link : Fin 2) (s : State) : Host.Outcome State Fault Refusal :=
  powered s (nvmeTimeout s port link)

/-- A module without a drive holds no NVMe copy (R399). -/
def dropCopies (s : State) : State :=
  if anyDrive s then s
  else { s with
    nwt := { s.nwt with nvmeCopy := [] }
    thresher := { s.thresher with shards := s.thresher.shards.map fun x => { x with nvme := none } } }

/-- R461: a controller reset does not reach ready: the port is pending fallow. -/
def nvmeResetTimeout (s : State) (port : Nat) : State :=
  let x := s.pciPort port
  if x.resetting.any id then
    let s := s.modPci port fun x => { x with
      drive := x.drive.mapIdx fun i d => d && !x.resetting.getD i false, resetting := [false, false] }
    dropCopies (setPend s { s.dev.pend with pcie := s.dev.pend.pcie ||| BitVec.ofNat 4 (2^port) })
  else s

def execNvmeResetTimeout (port : UnitIx) (s : State) : Host.Outcome State Fault Refusal :=
  powered s (nvmeResetTimeout s port)

/-- R461: a drive is removed while running. DEDUCED: log entry 96. -/
def nvmeDriveRemoval (s : State) (port link : Nat) : State :=
  if !driveOn s port link then s
  else dropCopies (s.modPci port fun x => { x with
    drive := modAt (fun _ => false) link x.drive, speed := modAt (fun _ => 0) link x.speed
    width := modAt (fun _ => 0) link x.width, resetting := modAt (fun _ => false) link x.resetting })

def execNvmeDriveRemoval (port : UnitIx) (link : Fin 2) (s : State) : Host.Outcome State Fault Refusal :=
  powered s (nvmeDriveRemoval s port link)

/-! ### Management (R462 to R464) -/

/-- Management answers from SAFE onwards (R464). -/
def mgtAnswers (s : State) : Bool := s.dev.mode != .off && s.dev.mode != .boot

/-- The boot ROM alone answers, and only firmware update (R477). -/
def noImage (s : State) : Bool := s.dev.mode == .safe && s.dev.safeCode == 1

/-- R462: the I3C target takes a dynamic address. DESIGN CHOICE: log entry 97. -/
def execI3cDaa (_setdasa : Bool) (addr : BitVec 7) (s : State) : Host.Outcome State Fault Refusal :=
  powered s (if mgtAnswers s then { s with mgt := { s.mgt with i3cDa := addr } } else s)

/-- R462: a bus owner assigns an MCTP endpoint ID. DESIGN CHOICE: log entry 97. -/
def mctpSetEndpointId (s : State) (smbus : Bool) (eid : Byte) : State :=
  if !mgtAnswers s || (!smbus && s.mgt.i3cDa == 0) then s
  else { s with mgt := if smbus then { s.mgt with smbEid := eid } else { s.mgt with i3cEid := eid } }

def execMctpSetEndpointId (smbus : Bool) (eid : Byte) (s : State) : Host.Outcome State Fault Refusal :=
  powered s (mctpSetEndpointId s smbus eid)

/-- The device state as the beacon map codes it (R467). -/
def modeCode : DevMode → Nat
  | .off => 0 | .boot => 1 | .safe => 2 | .service => 3 | .eclipse => 4 | .drain => 5 | .failed => 6

/-- A numeric sensor's value: whole °C, a thermal level, mV, cA, W, the risk, or the state's code.
DEDUCED: log entry 98. -/
def sensorValue (s : State) : Sensor → PldmAnswer
  | .stackTemp st => match (s.stack st).temp with
    | some t => .value (t / 16)
    | none => .unavailable
  | .stackLevel st => .value (s.stack st).level.num
  | .vin => .value s.power.vin
  | .iin => .value s.power.iin
  | .pin => .value s.power.pin
  | .risk => .value s.nwt.risk
  | .state => .value (modeCode s.dev.mode)

/-- Does the device restart by command in its state (R478). -/
def mayRestart (s : State) : Bool := s.dev.mode == .safe || s.dev.mode == .service || s.dev.mode == .drain

/-- R463, R479: the effect of a PLDM request and its answer; none where the device does not answer.
DEDUCED: log entry 98. -/
def pldmDo (s : State) : PldmReq → State × Option PldmAnswer
  | .getSensor id => if noImage s then (s, none) else (s, some (sensorValue s id))
  | .setTaiEffecter sec => if noImage s then (s, none) else (pldmSetTai s sec, some .done)
  | .requestUpdate =>
    if s.dev.session.isSome then (s, some .alreadyInUpdateMode) else (stageOpen s .pldm, some .done)
  | .cancelUpdate =>
    (if s.dev.session.any fun x => x.path == .pldm then { s with dev := { s.dev with session := none } } else s, some .done)
  | .activateFirmware => if mayRestart s then (orderRestart s (s.pst.up + 10^9), some .done) else (s, some .notSupported)
  | .restart => if noImage s then (s, none) else
    if mayRestart s then (orderRestart s s.pst.up, some .done) else (s, some .notSupported)
  | .base _ => if noImage s then (s, none) else (s, some .done)

def pldmRequest (s : State) (smbus : Bool) (r : PldmReq) : State :=
  if !mgtAnswers s || (!smbus && s.mgt.i3cDa == 0) then s
  else
    match pldmDo s r with
    | (s, some a) => s.send (.pldm smbus a)
    | (s, none) => s

def execPldmRequest (smbus : Bool) (r : PldmReq) (s : State) : Host.Outcome State Fault Refusal :=
  powered s (pldmRequest s smbus r)

/-- R479: ActivateFirmware is answered, and the restart is ordered 1 s later. -/
def execPldmActivateFirmware (s : State) : Host.Outcome State Fault Refusal :=
  powered s (if mayRestart s then orderRestart s (s.pst.up + 10^9) else s)

/-- R463, R487: a piece of the image arrives; the whole image is verified. -/
def pldmFirmwareData (s : State) (off : Nat) (data : List Byte) (len : Nat) : State :=
  let open_ := s.dev.session.any fun x => x.path == .pldm
  if !mgtAnswers s || !open_ || off % 4096 != 0 || data.length != 4096 || len % 4096 != 0 || decide (len > 2^26)
    || decide (off + data.length > len) then s
  else
    match stageBlock s off data (some len) with
    | (s, st, d) => if s.dev.session.isNone then s.send (.pldmVerify st d) else s

def execPldmFirmwareData (offset : Nat) (data : List Byte) (len : Nat) (s : State) : Host.Outcome State Fault Refusal :=
  powered s (pldmFirmwareData s offset data len)

end Sys2Proof.Machine
end

