-- ==== Sys2Proof/Machine/Attention.lean ====
section
/-! DEFINITION. Where keys and values live, what a page list names and what each mask lets a query see (R228 to R239,
R246, R250). `rec_` is an attention layer record of R231 throughout. -/

namespace Sys2Proof.Machine

/-! ### Heads (R228, R229) -/

/-- H_loc of a position (R228, R229). -/
def kvHeads (h pos : Nat) : Nat := if h ≥ 8 then h / 8 + (if pos < h % 8 then 1 else 0) else 1

/-- The first KV head that a position holds, and how many. -/
def kvHeadRange (h pos : Nat) : Nat × Nat := if h ≥ 8 then segment h 8 pos else (pos * h / 8, 1)

/-- The first query head that a position computes, and how many: those of its KV heads, or its replica's part of the one
head that it shares. A count of 0 is a replica with a zero extent (R229). -/
def queryHeads (h g pos : Nat) : Nat × Nat :=
  let (k, n) := kvHeadRange h pos
  if h ≥ 8 then (k * g, n * g)
  else
    let (o, c) := segment g (8 / h) (pos % (8 / h))
    (k * g + o, c)

/-! ### Pages (R231 to R236) -/

/-- Does a layer record describe any attention (R232). -/
def kvLayer (rec_ : List Byte) : Bool := fieldAt rec_ 4 2 != 0 && fieldAt rec_ 6 2 != 0 && fieldAt rec_ 8 2 != 0

def kvPageBytes (rec_ : List Byte) : Nat := 65536 / 2^(fieldAt rec_ 1 1 % 4)

/-- row_bytes of a stored key or value row (R233). -/
def kvRowBytes (rec_ : List Byte) : Nat := 64 * ceilDiv (fieldAt rec_ 4 2 * elemBits (fieldAt rec_ 0 1 % 16)) 512

/-- σ: the greatest power of two of stored rows that fit half a page (R233). -/
def kvSigma (rec_ : List Byte) : Nat :=
  let row := kvRowBytes rec_
  if row = 0 then 1 else 2^(Nat.log2 (kvPageBytes rec_ / 2 / row))

/-- R234: the page index of a position, and the offsets in that page of its key row and of its value row. -/
def kvPlace (rec_ : List Byte) (t : Nat) : Nat × Nat × Nat :=
  let r := t % kvSigma rec_ * kvRowBytes rec_
  (t / kvSigma rec_, r, kvPageBytes rec_ / 2 + r)

/-- R235: the stride of a slot's page lists, for H_loc heads and MAXPOS positions. -/
def kvStride (rec_ : List Byte) (heads maxpos : Nat) : Nat := 64 * ceilDiv (4 * heads * ceilDiv maxpos (kvSigma rec_)) 64

/-- R235: the entry that names a page of the pool. -/
def kvEntry (page : Nat) : Word := BitVec.ofNat 32 (2^31 + page % 2^23)

def entryPage (e : Word) : Nat := bits e.toNat 22 0

/-- R235: the job-virtual address of the page that an entry names. -/
def kvPageAddr (base : Nat) (rec_ : List Byte) (e : Word) : Nat := base + entryPage e * kvPageBytes rec_

/-- Entry e = j × H_loc + h of a page list. -/
def KvList.entry (l : KvList) (j h : Nat) : Word := l.first.getD (j * l.heads + h) 0

/-- R234, R235: the job-virtual addresses of the key row and of the value row of position t for local head h. -/
def kvRowAddr (base : Nat) (rec_ : List Byte) (l : KvList) (t h : Nat) : Nat × Nat :=
  let (j, k, v) := kvPlace rec_ t
  let a := kvPageAddr base rec_ (l.entry j h)
  (a + k, a + v)

/-- R246: the status with which an entry ends its sequence: one that is not valid, or a page beyond the pool. -/
def entryEnds (pool : Nat) (e : Word) : Option Status :=
  if !bit e.toNat 31 || bits e.toNat 30 23 != 0 then some .internal
  else if entryPage e ≥ pool then some .outOfRange else none

/-! ### Split sequences (R250) -/

/-- The chunk size of a sequence split over p members whose prefill is `prompt` positions long. -/
def splitChunk (sigma p prompt : Nat) : Nat := sigma * ceilDiv prompt (2 * p * sigma)

/-- The member that holds chunk i. -/
def chunkMember (p i : Nat) : Nat :=
  let r := i % (2 * p)
  if r < p then r else 2 * p - 1 - r

/-- The pages that a member of a split sequence holds for one head, of the first `n` positions. -/
def splitPages (sigma p m prompt n : Nat) : Nat :=
  let c := splitChunk sigma p prompt
  if c = 0 then 0
  else ((List.range (ceilDiv n c)).map fun i => if chunkMember p i = m then ceilDiv (min c (n - i * c)) sigma else 0).sum

/-- The pages of one head that hold the first `n` positions here: all of them, or a member's own. -/
def localPages (sigma split m prompt n : Nat) : Nat :=
  if split = 1 then ceilDiv n sigma else splitPages sigma split m prompt n

/-! ### Masks (R237, R238) -/

/-- R237: does a query at position q see the key at position k, of a sequence that holds n. `bitmap` is the 64-byte key
bitmap of the key's page, none where its line reads poisoned. -/
def kvVisible (rec_ : List Byte) (bitmap : Option (List Byte)) (n q k : Nat) : Bool :=
  decide (k < n) &&
  match fieldAt rec_ 2 1 % 8 with
  | 0 => decide (k ≤ q)
  | 1 => true
  | 2 => decide (q < k + fieldAt rec_ 12 4) && decide (k ≤ q)
  | 3 => decide (k ≤ q) || decide (k < fieldAt rec_ 16 4)
  | 4 => decide (k ≤ q) && (match bitmap with
    | some b => let i := k % kvSigma rec_; bit (b.getD (i / 8) 0).toNat (i % 8)
    | none => false)
  | _ => false

/-- R238: does a visit of page j for the `r` queries from position q0 on find any visible key. -/
def pageVisited (rec_ : List Byte) (bitmap : Nat → Option (List Byte)) (n q0 r j : Nat) : Bool :=
  (List.range (kvSigma rec_)).any fun i => (List.range r).any fun d =>
    kvVisible rec_ (bitmap j) n (q0 + d) (j * kvSigma rec_ + i)

/-- R238: the pages that are visited, in increasing order. -/
def visitedPages (rec_ : List Byte) (bitmap : Nat → Option (List Byte)) (n q0 r : Nat) : List Nat :=
  (List.range (ceilDiv n (kvSigma rec_))).filter (pageVisited rec_ bitmap n q0 r)

/-- R238: the vector mask of a visit of page j: one bit for each query row and key slot, the span's further lanes 0. -/
def visitMask (rec_ : List Byte) (bitmap : Option (List Byte)) (n q0 r j : Nat) : List (List Bool) :=
  (List.range r).map fun d => (List.range (max (kvSigma rec_) 128)).map fun i =>
    decide (i < kvSigma rec_) && kvVisible rec_ bitmap n (q0 + d) (j * kvSigma rec_ + i)

/-- R239: the positions of the first chunk that a layer requires whole. -/
def layerWhole (rec_ : List Byte) (prompt : Nat) : Nat :=
  let mask := fieldAt rec_ 2 1 % 8
  if mask = 1 then prompt else if mask = 3 then min (fieldAt rec_ 16 4) prompt else 0

/-- R246: what a walk of one layer's list for `r` queries from q0 on finds, with n positions held. In EXPLICIT mode the
bitmaps are taken to show every key. DEDUCED: log entry 124. -/
def listEnds (pool split m prompt : Nat) (rec_ : List Byte) (l : KvList) (n q0 r : Nat) : Option Status :=
  let all := fun (_ : Nat) => some (List.replicate 64 (0xFF : Byte))
  let js := if split = 1 then visitedPages rec_ all n q0 r
    else List.range (splitPages (kvSigma rec_) split m prompt n)
  js.findSome? fun j => (List.range l.heads).findSome? fun h => entryEnds pool (l.entry j h)

/-! ### Taking pages (R236) -/

/-- The lowest page of a pool that is not in use. DESIGN CHOICE: log entry 125. -/
def lowestFree (pool : Nat) (used : List Nat) : Option Nat :=
  ((List.range (used.length + 1)).find? fun p => !used.contains p).filter fun p => decide (p < pool)

/-- What taking pages works on: a slot's lists that are done, the pages in use, and the sequence's replaced pages. -/
structure KvTake where
  used : List Nat
  old : List Nat
  deriving DecidableEq, Repr

/-- One more entry of a list: a free page, else one that a rebuild has replaced. DEDUCED: log entry 126. -/
def takeEntry (pool : Nat) (t : KvTake) (l : KvList) : KvTake × KvList :=
  let put := fun (p : Nat) => { l with first := l.first ++ [kvEntry p], second := l.second ++ [kvEntry p] }
  match lowestFree pool t.used, t.old with
  | some p, _ => ({ t with used := p :: t.used }, put p)
  | none, p :: rest => ({ t with old := rest }, put p)
  | none, [] => (t, { l with first := l.first ++ [0], second := l.second ++ [0] })

def takeEntries (pool : Nat) : Nat → KvTake → KvList → KvTake × KvList
  | 0, t, l => (t, l)
  | n + 1, t, l => let (t, l) := takeEntry pool t l; takeEntries pool n t l

/-- The pages that a list's valid entries name. -/
def KvList.pages (l : KvList) : List Nat := (l.first.filter fun e => bit e.toNat 31).map entryPage

/-- R236: V = 0 in both copies of every entry. -/
def KvList.clear (l : KvList) : KvList :=
  { l with first := l.first.map (· &&& 0x7FFFFFFF#32), second := l.second.map (· &&& 0x7FFFFFFF#32) }

end Sys2Proof.Machine
end

