-- ==== Sys2Proof/Machine/Proto.lean ====
section
/-! DEFINITION. Messages, sessions and requests: what the home keeps of them and how a request ends (R258 to R287,
R425 to R446). -/

namespace Sys2Proof.Machine

/-! ### Messages (R431) -/

def msgBytes (ver ty st detail : Nat) (reqId : DWord) (time seq : Nat) (body : List Byte) : List Byte :=
  leBytes 1 ver ++ leBytes 1 ty ++ leBytes 1 1 ++ leBytes 1 st ++ leBytes 1 detail ++ leBytes 1 0
  ++ leBytes 2 body.length ++ leBytes 8 reqId.toNat ++ leBytes 8 time ++ leBytes 4 seq ++ leBytes 4 0 ++ body

def modConn (s : State) (c : Nat) (f : Conn → Conn) : State :=
  match SMap.find s.service.conns c with
  | none => s
  | some x => { s with service := { s.service with conns := SMap.set s.service.conns c (f x) } }

/-- A message sent on a connection, where it is open. -/
def sendMsg (s : State) (c : Nat) (r : Reply) : State :=
  match SMap.find s.service.conns c with
  | none => s
  | some x =>
    (modConn s c fun x => { x with sent := x.sent + 1 }).send
      (.message c (msgBytes x.version r.ty (statusCode r.status) r.detail r.reqId s.pst.now x.sent.toNat r.body))

/-- A completion: the request's TYPE and REQUEST_ID returned. -/
def respond (s : State) (c ty : Nat) (reqId : DWord) (st : Status) (detail : Nat) (body : List Byte := []) : State :=
  sendMsg s c ⟨ty, st, detail, reqId, body⟩

/-! ### Sessions (R428, R429) -/

def session? (s : State) (id : DWord) : Option SvcSession := (s.service.sessions.find? fun x => x.1 = id).map Prod.snd

def modSession (s : State) (id : DWord) (f : SvcSession → SvcSession) : State :=
  { s with service := { s.service with sessions := s.service.sessions.map fun x => if x.1 = id then (id, f x.2) else x } }

/-- A message toward a session: sent on its connection, or held in the output ring. -/
def toSession (s : State) (id : DWord) (r : Reply) : State :=
  match session? s id with
  | none => s
  | some x => match x.conn with
    | some c => modSession (sendMsg s c r) id fun x => { x with flight := x.flight ++ [r] }
    | none => modSession s id fun x => { x with ring := x.ring ++ [r] }

/-- The token entries that a session's ring holds. DEDUCED: log entry 93. -/
def heldEntries (x : SvcSession) : Nat := (x.ring.map fun r => if r.ty = 0x12 then fieldAt r.body 0 2 else 0).sum

/-- The last messages of a list, in order. -/
def lastOf (n : Nat) (l : List Reply) : List Reply := l.drop (l.length - n)

/-- A session left without its connection, with the last `unsent` of its messages not sent. -/
def detach (s : State) (c unsent : Nat) : State :=
  { s with service := { s.service with
    conns := SMap.del s.service.conns c
    waiting := s.service.waiting
    sessions := s.service.sessions.map fun x =>
      if x.2.conn = some c then (x.1, { x.2 with conn := none, detachedAt := s.pst.up, flight := lastOf unsent x.2.flight }) else x } }

/-- The device closes a connection once its pending SENDs complete (R444). DEDUCED: log entry 135. -/
def closeConn (s : State) (c : Nat) : State :=
  if (SMap.find s.service.conns c).isSome then (detach s c 0).send (.close c) else s

def closeAll (s : State) : State := (SMap.keys s.service.conns).foldl closeConn s

/-- Completions that fall due: each one that awaits `why`, on its connection. -/
def completeWaiting (s : State) (why : Owed) (st : Status) (detail : Nat) (body : List Byte := []) : State :=
  let due := s.service.waiting.filter fun w => w.why = why
  let s := { s with service := { s.service with waiting := s.service.waiting.filter fun w => w.why ≠ why } }
  due.foldl (fun s w => respond s w.conn w.ty w.reqId st detail body) s

/-! ### Plans, pools and instances -/

def planPool (s : State) (id : Nat) : Option PoolPlan := s.plan.bind fun p => p.pools.find? fun x => x.id = id
def planInst (s : State) (id : Nat) : Option InstancePlan := s.plan.bind fun p => p.instances.find? fun x => x.id = id
def inst (s : State) (id : Nat) : Inst := SMap.get {} s.insts id
def modInst (s : State) (id : Nat) (f : Inst → Inst) : State := { s with insts := SMap.set s.insts id (f (inst s id)) }

/-- The instance that a pool serves. -/
def poolInst (s : State) (pool : Nat) : Nat := match planPool s pool with
  | some p => p.inst
  | none => 0

/-- The cycle record of a trained instance (R309). -/
def cycle? (s : State) (i : Nat) : Option (List Byte) := (planInst s i).bind (·.cycle)

def serveInLearn (s : State) (i : Nat) : Bool := match cycle? s i with
  | some c => bit (fieldAt c 2 1) 1
  | none => false

/-- R308, R397, R401, R412: is a pool of an instance paused. -/
def instPaused (s : State) (i : Nat) : Bool :=
  (inst s i).phase == .turning || ((inst s i).phase == .learning && !serveInLearn s i)
  || s.nwt.eclipse != .none || s.nwt.cutover || !s.nwt.short.isEmpty

def poolPaused (s : State) (pool : Nat) : Bool := instPaused s (poolInst s pool)

/-- The time that the ADMIT_MS clock of a queued request has run (R265, R308). -/
def admitRan (s : State) (q : Queued) : Nat := q.ran + if poolPaused s q.req.pool then 0 else s.pst.up - q.since

/-- The ADMIT_MS clocks read, before anything that may stop or start them. -/
def readClocks (s : State) : State :=
  { s with serving := { s.serving with
    queue := s.serving.queue.map fun q => { q with ran := admitRan s q, since := s.pst.up } } }

/-- A phase that takes effect at the next step boundary. -/
def setPhase (s : State) (i : Nat) (p : Phase) : State := modInst s i fun x => { x with nextPhase := some p }

/-- The phase that the coordinator has decided. -/
def phaseOf (s : State) (i : Nat) : Phase := (inst s i).nextPhase.getD (inst s i).phase

/-! ### Requests -/

def slot? (s : State) (i : Nat) : Option Slot := SMap.find s.serving.slots i
def modSlot (s : State) (i : Nat) (f : Slot → Slot) : State :=
  match slot? s i with
  | none => s
  | some x => { s with serving := { s.serving with slots := SMap.set s.serving.slots i (f x) } }

/-- The STATE of R261. -/
def stateCode : SlotState → Nat
  | .prefill => 1 | .decode => 2 | .ending => 3

def boolBits (l : List Bool) : Nat := (l.mapIdx fun i b => if b then 2^i else 0).sum

/-- MAXPOS of R261. -/
def reqMaxpos (r : GenReq) : Nat := r.promptLen + r.maxNew - 1

/-- R261: the 128 bytes of a slot record, its STATE given. -/
def slotImage (state : Nat) (x : Slot) : List Byte :=
  let r := x.req
  leBytes 1 state
  ++ leBytes 1 (boolBits [x.split != 1, r.adapterEn, r.pin, r.stop0.isSome, r.stop1.isSome, x.mixed, x.suspect, x.cancelled])
  ++ leBytes 1 r.pool ++ leBytes 1 (boolBits [r.topkEn, r.toppEn]) ++ leBytes 2 r.tenant ++ leBytes 2 r.adapterId
  ++ leBytes 4 x.adapterVer.toNat ++ leBytes 4 x.policy.toNat ++ leBytes 8 r.reqId.toNat ++ leBytes 4 r.promptLen
  ++ leBytes 4 r.maxNew ++ leBytes 4 (reqMaxpos r) ++ leBytes 4 x.held ++ leBytes 4 x.generated ++ leBytes 4 x.emptyRow.toNat
  ++ leBytes 8 r.seed.toNat ++ leBytes 4 r.temp.toNat ++ leBytes 4 r.topP.toNat ++ leBytes 2 r.topK ++ leBytes 1 x.home
  ++ leBytes 1 x.split ++ leBytes 4 (r.stop0.getD 0).toNat ++ leBytes 4 (r.stop1.getD 0).toNat ++ leBytes 4 x.pages
  ++ leBytes 8 (x.pageList % 2^48) ++ leBytes 8 (x.maskList % 2^48) ++ leBytes 8 x.admitStep ++ leBytes 8 x.admitTime
  ++ leBytes 1 x.end_ ++ leBytes 1 (if x.state = .ending then statusCode x.endStatus else 0) ++ leBytes 14 0

/-- R261: the slot that a record's bytes give. What the record does not carry stands at its start. -/
def slotRead (b : List Byte) : Slot :=
  let n := fieldAt b
  let fl := n 1 1
  let w := fun off => BitVec.ofNat 32 (n off 4)
  let r : GenReq := {
    reqId := BitVec.ofNat 64 (n 16 8), session := 0, tenant := n 4 2 % 4096, pool := n 2 1
    adapterEn := bit fl 1, pin := bit fl 2, stop0 := if bit fl 3 then some (w 68) else none
    stop1 := if bit fl 4 then some (w 72) else none, topkEn := bit (n 3 1) 0, toppEn := bit (n 3 1) 1
    adapterId := n 6 2, topK := n 64 2, policyVer := w 12, promptLen := n 24 4, maxNew := n 28 4
    temp := w 56, topP := w 60, seed := BitVec.ofNat 64 (n 48 8), prompt := [] }
  { state := if n 0 1 = 1 then .prefill else if n 0 1 = 2 then .decode else .ending
    req := r, split := n 67 1, adapterVer := w 8, policy := w 12, mixed := bit fl 5, suspect := bit fl 6
    cancelled := bit fl 7, held := n 36 4, generated := n 40 4, emptyRow := w 44, home := n 66 1, pages := n 76 4
    pageList := n 80 8 % 2^48, maskList := n 88 8 % 2^48, fill := n 24 4, admitStep := n 96 8, admitTime := n 104 8
    end_ := n 112 1, endStatus := statusOfCode (n 113 1) }

/-- The slot of a record; none for STATE FREE. -/
def slotOf (b : List Byte) : Option Slot := if fieldAt b 0 1 = 0 then none else some (slotRead b)

/-- R261: the home's slot record sent to the other modules. -/
def sendSlot (s : State) (i : Nat) : State :=
  match slot? s i with
  | some x => if x.home = s.dev.position then s.send (.slotRecord i (slotImage (stateCode x.state) x)) else s
  | none => s

def reqModule (id : DWord) : Nat := id.toNat / 2^52
def reqTenant (id : DWord) : Nat := id.toNat / 2^40 % 4096

/-- A request is kept among the 65,536 most recently ended. -/
def noteEnded (s : State) (id : DWord) (tokens : Bool) : State :=
  { s with serving := { s.serving with ended := ((id, tokens) :: s.serving.ended).take 65536 } }

/-- Is a request among those. -/
def hasEnded (s : State) (id : DWord) : Bool := s.serving.ended.any fun e => e.1 == id

/-- The body of a TERMINAL (R439). -/
def terminalBody (end_ generated policy adapter empty flags time : Nat) : List Byte :=
  leBytes 1 end_ ++ leBytes 3 0 ++ leBytes 4 generated ++ leBytes 4 policy ++ leBytes 4 adapter ++ leBytes 4 empty
  ++ leBytes 4 flags ++ leBytes 8 time

def countCancel (s : State) (st : Status) : State := if st = .cancelled then s.incReg .supSrvCancel else s

/-- A queued request ends: nothing was held (R267). -/
def endQueued (s : State) (q : Queued) (end_ : Nat) (st : Status) : State :=
  let s := { s with serving := { s.serving with queue := s.serving.queue.filter fun x => x.req.reqId ≠ q.req.reqId } }
  let s := countCancel (noteEnded s q.req.reqId false) st
  toSession s q.req.session ⟨0x13, st, 0, q.req.reqId, terminalBody end_ 0 0 0 0 0 0⟩

/-- A flag set in the samples of a request that a condition picks (R332). DEDUCED: log entry 67. -/
def flagWhere (s : State) (i : Nat) (p : Sample → Bool) (flag : Nat) : State :=
  modInst s i fun x => { x with store := x.store.map fun r => if p r then { r with flags := r.flags ||| flag } else r }

/-- A sequence enters ENDING at its home: LAST on its final record, its one terminal record, and on a cancel a notice to the modules
that hold the slot (R267, R268, R277, R332). -/
def endSlot (s : State) (i end_ : Nat) (st : Status) : State :=
  match slot? s i with
  | none => s
  | some x =>
    if x.state = .ending then s
    else
      let s := modSlot s i fun x => { x with
        state := .ending, end_ := end_, endStatus := st, masked := true, cancelled := decide (st = .cancelled) }
      let s := flagWhere s (poolInst s x.req.pool) (fun r => r.reqId == x.req.reqId && r.index + 1 == x.generated) 16
      let s := countCancel (noteEnded s x.req.reqId (x.generated != 0)) st
      let s := sendSlot (if st = .cancelled then s.send (.cancelNotice i) else s) i
      toSession s x.req.session ⟨0x13, st, 0, x.req.reqId,
        terminalBody end_ x.generated x.policy.toNat x.adapterVer.toNat x.emptyRow.toNat (x.mixed.toNat + 2 * x.suspect.toNat)
          x.admitTime⟩

/-- The slot of a request that is homed here, and its entry in a queue here. -/
def slotOfReq (s : State) (id : DWord) : Option (Nat × Slot) :=
  s.serving.slots.find? fun x => x.2.req.reqId == id && x.2.home == s.dev.position
def queuedReq (s : State) (id : DWord) : Option Queued := s.serving.queue.find? fun x => x.req.reqId == id && x.home.isNone

/-- R276: a cancel processed at the home, and what the cancel completes with. -/
def cancelReq (s : State) (id : DWord) : State × Status × Nat :=
  match queuedReq s id, slotOfReq s id with
  | some q, _ => (endQueued s q 3 .cancelled, .ok, 0)
  | none, some (i, x) => if x.state = .ending then (s, .alreadyDone, 0) else (endSlot s i 3 .cancelled, .ok, 0)
  | none, none => if hasEnded s id then (s, .alreadyDone, 0) else (s, .outOfRange, 0x10)

/-- Every open request that a condition picks ended with one status. -/
def endRequests (s : State) (p : GenReq → Bool) (end_ : Nat) (st : Status) : State :=
  let s := (s.serving.queue.filter fun q => p q.req && q.home.isNone).foldl (fun s q => endQueued s q end_ st) s
  (s.serving.slots.filter fun x => p x.2.req && x.2.home == s.dev.position).foldl (fun s x => endSlot s x.1 end_ st) s

/-- R428: a session's open requests are cancelled and its held entries discarded. -/
def expireSession (s : State) (id : DWord) : State :=
  let s := (endRequests s (fun r => r.session == id) 3 .cancelled).incReg .supSvcExpired
  { s with service := { s.service with sessions := s.service.sessions.filter fun x => x.1 ≠ id } }

/-- R428: the bound on the held entries of a session without a connection. -/
def boundRing (s : State) (id : DWord) : State :=
  match session? s id with
  | some x => if x.conn = none ∧ heldEntries x > 65536 then expireSession s id else s
  | none => s

end Sys2Proof.Machine
end

