-- ==== Sys2Proof/Machine/Thresher.lean ====
section
/-! DEFINITION. The thresher: owners, the update rules, the update and its commit, the journal and redos
(R361 to R389). -/

namespace Sys2Proof.Machine

/-! ### Images and fingerprints (R289) -/

/-- The image of a tensor's elements. -/
def tensorImage (fmt : Nat) (elems : List Nat) : List Byte :=
  let b := packRow fmt elems
  b ++ List.replicate (ceilDiv b.length 64 * 64 - b.length) 0

def masterImage (l : List Word) : List Byte := tensorImage 0 (l.map BitVec.toNat)
def masterFpOf (l : List Word) : DWord := fingerprint (masterImage l)

/-! ### Owners (R361, R362) -/

/-- The stage of layer l: L layers over S stages (R338). -/
def stageOf (layers stages l : Nat) : Nat :=
  ((List.range stages).find? fun i =>
    let q := layers / stages
    let r := layers % stages
    decide (l < (i + 1) * q + min (i + 1) r)).getD 0

def tensorStage (p : InstancePlan) (t : TensorPlan) : Nat :=
  match t.layer with
  | some l => stageOf p.mapping.layers p.mapping.stages l
  | none => 0

/-- The owners of a stage, by increasing module ID. -/
def stageOwners (p : InstancePlan) (stage : Nat) : List Nat :=
  (((List.range p.mapping.sheaves).filter fun i => i % p.mapping.stages = stage).map fun i =>
    (List.range 8).map fun q => 8 * (p.firstSheaf + i) + q).flatten

def tensorParams (t : TensorPlan) : Nat := t.shape.foldl (· * ·) 1

/-- A list sorted by an order, by insertion. -/
def insertBy {α : Type} (le : α → α → Bool) (a : α) : List α → List α
  | [] => [a]
  | b :: t => if le a b then a :: b :: t else b :: insertBy le a t

def sortBy {α : Type} (le : α → α → Bool) (l : List α) : List α := l.foldr (insertBy le) []

/-- Parameters descending, then TENSOR_ID ascending. -/
def tensorLe (a b : TensorPlan) : Bool :=
  decide (tensorParams a > tensorParams b) || (tensorParams a == tensorParams b && decide (a.id ≤ b.id))

/-- The owner with the least load, the lowest module ID on a tie. -/
def leastLoad : List (Nat × Nat) → Option (Nat × Nat)
  | [] => none
  | [x] => some x
  | x :: t => match leastLoad t with
    | some y => some (if y.2 < x.2 then y else x)
    | none => some x

/-- R362: one stage's tensors, in order, over its owners' loads. -/
def assignStage : List TensorPlan → List (Nat × Nat) → List OwnerEnt
  | [], _ => []
  | t :: ts, loads =>
    match leastLoad loads with
    | none => []
    | some (o, _) =>
      OwnerEnt.mk t.id o t.rule (tensorParams t)
        :: assignStage ts (loads.map fun x => if x.1 = o then (o, x.2 + tensorParams t) else x)

/-- R362 over every stage of an instance. -/
def assignOwners (p : InstancePlan) : List OwnerEnt :=
  ((List.range p.mapping.stages).map fun st =>
    assignStage (sortBy tensorLe (p.tensors.filter fun t => t.trained && tensorStage p t == st))
      ((stageOwners p st).map fun o => (o, 0))).flatten

/-! ### Rule records and rates (R371, R372) -/

structure Rule where
  kind : Nat
  nesterov : Bool
  resid : Bool
  bias : Bool
  nsIters : Nat
  rootIters : Nat
  beta1 : FVal
  beta2 : FVal
  eps : FVal
  wd : FVal
  nsA : FVal
  nsB : FVal
  nsC : FVal
  rootEvery : Nat
  sched : Nat
  deriving DecidableEq, Repr

def ruleOf (b : List Byte) : Rule :=
  let f := fun o => fp32.decode (fieldAt b o 4)
  let fl := fieldAt b 1 1
  { kind := fieldAt b 0 1, nesterov := bit fl 0, resid := bit fl 1, bias := bit fl 2, nsIters := fieldAt b 2 1
    rootIters := fieldAt b 3 1, beta1 := f 4, beta2 := f 8, eps := f 12, wd := f 16, nsA := f 20, nsB := f 24, nsC := f 28
    rootEvery := fieldAt b 32 2, sched := fieldAt b 34 1 }

namespace Up

/-! FP32 operations on values, each rounded to nearest-even (R373). -/

def add (a b : FVal) : FVal := (F.add a b).1
def sub (a b : FVal) : FVal := (F.sub a b).1
def mul (a b : FVal) : FVal := (F.mul a b).1
def div (a b : FVal) : FVal := (F.div a b).1
def sqrt (a : FVal) : FVal := (F.sqrt a).1
def sum (l : List FVal) : FVal := (F.treeSum l).1
def one : FVal := .fin false 1 0
def zero : FVal := .fin false 0 fp32.emin
def nat (n : Nat) : FVal := (F.round (.fin false n 0)).1

/-- β^t by square-and-multiply from the most significant bit of t. -/
def pow (b : FVal) (t : Nat) : FVal :=
  (List.range (Nat.log2 t + 1)).reverse.foldl (fun r i =>
    let r := mul r r
    if t / 2^i % 2 = 1 then mul r b else r) one

/-- R372: the rate of step t. -/
def rate (sch : List (Nat × Word)) (t : Nat) : FVal :=
  let v := fun (w : Word) => fp32.decode w.toNat
  match (sch.filter fun p => decide (p.1 ≤ t)).getLast?, sch.find? fun p => decide (t < p.1) with
  | none, some p => v p.2
  | some p, none => v p.2
  | some p, some q => add (v p.2) (mul (sub (v q.2) (v p.2)) (div (nat (t - p.1)) (nat (q.1 - p.1))))
  | none, none => zero

abbrev Mat := List (List FVal)

def rowsOf (n : Nat) : Nat → List FVal → Mat
  | 0, _ => []
  | k + 1, l => l.take n :: rowsOf n k (l.drop n)

def transpose (cols : Nat) (m : Mat) : Mat := (List.range cols).map fun j => m.map fun r => r.getD j zero
def map (f : FVal → FVal) (m : Mat) : Mat := m.map (List.map f)
def zip (f : FVal → FVal → FVal) (a b : Mat) : Mat := List.zipWith (List.zipWith f) a b
/-- The identity times a factor, of k × k. -/
def ident (z : FVal) (k : Nat) : Mat := (List.range k).map fun i => (List.range k).map fun j => if i = j then z else zero
def frob (m : Mat) : FVal := sqrt (sum (m.flatten.map fun v => mul v v))
def trace (m : Mat) : FVal := sum (m.mapIdx fun i r => r.getD i zero)
def mean (l : List FVal) : FVal := div (sum l) (nat l.length)

/-- A value rounded into a format of the matrix engine's operands and read back. -/
def into (f : FFmt) (v : FVal) : FVal := f.decode (convFloat f none v).1

/-- One cell of a product: blocks of 32 in the order of R69. DEDUCED: log entry 57. -/
def dot (fmt : Nat) (f : FFmt) : Nat → Cell → List FVal → List FVal → Cell
  | 0, c, _, _ => c
  | n + 1, c, a, b =>
    let e := fun (v : FVal) => ((v.enc f, false) : Elem)
    let c := (cellBlock false fmt fmt c (List.zip ((a.take 32).map e) ((b.take 32).map e))).1
    dot fmt f n c (a.drop 32) (b.drop 32)

/-- A product of the update constellation with its operands and its result in one format (R374, R375, R378): the rows of
`a` against the rows of `bt`, which is the second factor transposed. -/
def prod (fmt : Nat) (f : FFmt) (a bt : Mat) : Mat :=
  a.map fun r => bt.map fun c => into f (a40Of (dot fmt f (ceilDiv r.length 32) Cell.fresh r c).img)

/-- W − η · (d + WD · W), element by element. -/
def descend (eta wd : FVal) (w d : Mat) : Mat := zip (fun w d => sub w (mul eta (add d (mul wd w)))) w d

/-! ### The rules (R374 to R376) -/

/-- One iteration of ORTHO. -/
def nsStep (r : Rule) (x : Mat) : Mat :=
  let k := x.length
  let a := prod 1 bf16 x x
  let aa := prod 1 bf16 a (transpose k a)
  let b := zip add (zip add (ident r.nsA k) (map (mul r.nsB) a)) (map (mul r.nsC) aa)
  let b := map (into bf16) b
  prod 1 bf16 b (transpose ((x.headD []).length) x)

def iterate {α : Type} (f : α → α) : Nat → α → α
  | 0, a => a
  | n + 1, a => iterate f n (f a)

/-- ORTHO: the new master and momentum of a matrix. -/
def ortho (r : Rule) (eta : FVal) (rows cols : Nat) (w m g : Mat) : Mat × Mat :=
  let m := zip (fun m g => add (mul r.beta1 m) g) m g
  let u := if r.nesterov then zip (fun m g => add (mul r.beta1 m) g) m g else m
  let u := if rows > cols then transpose cols u else u
  let d := add (frob u) r.eps
  let x := iterate (nsStep r) r.nsIters (map (fun v => into bf16 (div v d)) u)
  let x := if rows > cols then transpose rows x else x
  let scale := sqrt (F.max one (div (nat rows) (nat cols)))
  (descend eta r.wd w (map (mul scale) x), m)

/-- root4inv of R375. -/
def root4inv (r : Rule) (s : Mat) : Mat :=
  let k := s.length
  let tr := trace s
  if tr.isZero then ident one k
  else
    let s := zip add s (ident (mul r.eps (div tr (nat k))) k)
    let z := div one (sqrt (sqrt (mul (fp32.decode 0x3F8CCCCD) (frob s))))
    let z2 := mul z z
    let q := map (mul (mul z2 z2)) s
    let step := fun (xq : Mat × Mat) =>
      let t := zip sub (ident (fp32.decode 0x3FA00000) k) (map (mul (fp32.decode 0x3E800000)) xq.2)
      let tt := transpose k t
      let t2 := prod 0 fp32 t tt
      (prod 0 fp32 xq.1 tt, prod 0 fp32 (prod 0 fp32 t2 (transpose k t2)) (transpose k xq.2))
    (iterate step r.rootIters (ident z k, q)).1

def toMat (m : List (List Word)) : Mat := m.map (List.map fun w => fp32.decode w.toNat)
def ofMat (m : Mat) : List (List Word) := m.map (List.map fun v => BitVec.ofNat 32 (v.enc fp32))

/-- PRECOND: the new master, momentum and factors of a matrix. -/
def precond (r : Rule) (eta : FVal) (t cols : Nat) (fc : Factors) (w m g : Mat) : Mat × Mat × Factors :=
  let b1 := sub one r.beta1
  let m := zip (fun m g => add (mul r.beta1 m) (mul b1 g)) m g
  let gt := transpose cols g
  let l := zip (fun a b => add (mul r.beta2 a) b) (toMat fc.l) (prod 0 fp32 g g)
  let rr := zip (fun a b => add (mul r.beta2 a) b) (toMat fc.r) (prod 0 fp32 gt gt)
  let (pl, pr) := if r.rootEvery ≠ 0 ∧ t % r.rootEvery = 0 then (root4inv r l, root4inv r rr) else (toMat fc.pl, toMat fc.pr)
  let pm := prod 0 fp32 pl (transpose cols m)
  let d := prod 0 fp32 pm (transpose cols pr)
  (descend eta r.wd w d, m, ⟨ofMat l, ofMat rr, ofMat pl, ofMat pr⟩)

/-- The factor 2^((q − 8)/4) of a residual code, in FP32. -/
def residual (q : Nat) : FVal :=
  let base := [0x3F800000, 0x3F9837F0, 0x3FB504F3, 0x3FD744FD].getD (q % 4) 0
  mul (fp32.decode base) (.fin false 1 ((q / 4 : Nat) - 2))

/-- The residual code of a value of BETA2·f + (1 − BETA2)·rho; none where it is a NaN or negative, for which R376
states no code. DESIGN CHOICE: log entry 58. -/
def codeOf : FVal → Option Nat
  | .nan => none
  | .inf s => if s then none else some 15
  | .fin s m e =>
    if m = 0 then some 0
    else if s then none
    else
      let l : Int := Nat.log2 (m^8) + 8 * e
      let q := (l + 1) / 2 + 8
      some (if q < 0 then 0 else min 15 q.toNat)

/-- The elements of the 16 × 16 block (i, j), row by row. -/
def block (m : Mat) (i j : Nat) : List FVal := ((m.drop (16 * i)).take 16).flatMap fun r => (r.drop (16 * j)).take 16

/-- m1/(sqrt(v1) + EPS) with BIAS_CORR as the rule says. -/
def elemDir (r : Rule) (t : Nat) (m v : FVal) : FVal :=
  let m1 := if r.bias then div m (sub one (pow r.beta1 (t + 1))) else m
  let v1 := if r.bias then div v (sub one (pow r.beta2 (t + 1))) else v
  div m1 (add (sqrt v1) r.eps)

/-- ELEM on a vector: the new master, momentum and second moment. -/
def elemVec (r : Rule) (eta : FVal) (t : Nat) (sk : Sketch) (w m g : List FVal) : List FVal × List FVal × Sketch :=
  let b2 := sub one r.beta2
  let m := List.zipWith (fun m g => add (mul r.beta1 m) (mul (sub one r.beta1) g)) m g
  let v := List.zipWith (fun (v : Word) g => add (mul r.beta2 (fp32.decode v.toNat)) (mul b2 (mul g g))) sk.row g
  let d := List.zipWith (elemDir r t) m v
  (List.zipWith (fun w d => sub w (mul eta (add d (mul r.wd w)))) w d, m, { sk with row := (ofMat [v]).headD [] })

/-- ELEM on a matrix: the new master, momentum and sketch. `free` is the counter of free values, for a residual code
that R376 does not state. DESIGN CHOICE: log entry 58. -/
def elemMat (r : Rule) (eta : FVal) (t free rows cols : Nat) (sk : Sketch) (w m g : Mat) : Mat × Mat × Sketch :=
  let b2 := sub one r.beta2
  let m := zip (fun m g => add (mul r.beta1 m) (mul (sub one r.beta1) g)) m g
  let g2 := map (fun v => mul v v) g
  let upd := fun (old : List Word) (means : List FVal) =>
    List.zipWith (fun (o : Word) x => add (mul r.beta2 (fp32.decode o.toNat)) (mul b2 x)) old means
  let row := upd sk.row (g2.map mean)
  let col := upd sk.col ((transpose cols g2).map mean)
  let mr := mean row
  let base := row.map fun ri => col.map fun cj => if mr.isZero then zero else div (mul ri cj) mr
  let nb := ceilDiv cols 16
  let codes := if r.resid then
      (List.range (ceilDiv rows 16 * nb)).map fun b =>
        let old := residual (sk.codes.getD b 8)
        let den := mean (block base (b / nb) (b % nb))
        let rho := if den.isZero then one else div (mean (block g2 (b / nb) (b % nb))) den
        (codeOf (add (mul r.beta2 old) (mul b2 rho))).getD ((Config.freeByte free b).toNat % 16)
    else sk.codes
  let v := if r.resid then
      base.mapIdx fun i x => x.mapIdx fun j y => mul y (residual (codes.getD (i / 16 * nb + j / 16) 8))
    else base
  (descend eta r.wd w (zip (elemDir r t) m v), m, ⟨(ofMat [row]).headD [], (ofMat [col]).headD [], codes⟩)

end Up

/-! ### The shadow half of an update (R380 steps 4 to 6) -/

def f12Of (v : FVal) : Nat := (convFloat f12w none v).1

/-- The new half of a shard: every matrix on its own. DEDUCED: log entry 57. -/
def newHalf (r : Rule) (eta : FVal) (t free : Nat) (x : Shard) (h : ShardHalf) (g : List FVal) : ShardHalf :=
  let n := x.rows * x.cols
  let w := h.master.map fun v => fp32.decode v.toNat
  let m := h.mom.map f12w.decode
  let parts := (List.range x.mats).map fun i =>
    let at_ := fun (l : List FVal) => (l.drop (n * i)).take n
    let mt := fun (l : List FVal) => Up.rowsOf x.cols x.rows (at_ l)
    let fc := h.factors.getD i {}
    let sk := h.sketch.getD i {}
    if r.kind = 1 then
      let (w, m) := Up.ortho r eta x.rows x.cols (mt w) (mt m) (mt g)
      (w.flatten, m.flatten, fc, sk)
    else if r.kind = 2 then
      let (w, m, fc) := Up.precond r eta t x.cols fc (mt w) (mt m) (mt g)
      (w.flatten, m.flatten, fc, sk)
    else if sk.col.isEmpty then
      let (w, m, sk) := Up.elemVec r eta t sk (at_ w) (at_ m) (at_ g)
      (w, m, fc, sk)
    else
      let (w, m, sk) := Up.elemMat r eta t free x.rows x.cols sk (mt w) (mt m) (mt g)
      (w.flatten, m.flatten, fc, sk)
  { master := (parts.map fun p => p.1).flatten.map fun v => BitVec.ofNat 32 (v.enc fp32)
    mom := (parts.map fun p => p.2.1).flatten.map f12Of
    factors := if r.kind = 2 then parts.map fun p => p.2.2.1 else []
    sketch := if r.kind = 3 then parts.map fun p => p.2.2.2 else [] }

/-- A half at plan load (R369, R375, R382): momentum, factors and sketch as they start, with a master.
DESIGN CHOICE: log entry 55. -/
def startHalf (r : Rule) (vector : Bool) (mats rows cols : Nat) (master : List Word) : ShardHalf :=
  let n := mats * rows * cols
  { master := master
    mom := List.replicate n 0
    factors := if r.kind = 2 then List.replicate mats
        ⟨List.replicate rows (List.replicate rows 0), List.replicate cols (List.replicate cols 0),
          Up.ofMat (Up.ident Up.one rows), Up.ofMat (Up.ident Up.one cols)⟩ else []
    sketch := if r.kind = 3 then
        (if vector then [⟨List.replicate rows 0, [], []⟩]
         else List.replicate mats ⟨List.replicate rows 0, List.replicate cols 0,
          if r.resid then List.replicate (ceilDiv rows 16 * ceilDiv cols 16) 8 else []⟩) else [] }

/-! ### Shards -/

def modShard (s : State) (t : Nat) (f : Shard → Shard) : State :=
  { s with thresher := { s.thresher with shards := s.thresher.shards.map fun x => if x.tensor = t then f x else x } }

def modUpd (s : State) (t : Nat) (f : Upd → Upd) : State := modShard s t fun x => { x with upd := x.upd.map f }

def thresherPlan (s : State) : Option ThresherPlan := s.plan.bind (·.thresher)

def shardRule (s : State) (x : Shard) : Rule :=
  ruleOf (match s.plan with
    | some p => p.rules.getD x.rule []
    | none => [])

/-- Does a rule need the update constellation. -/
def matrixRule (r : Rule) : Bool := r.kind == 1 || r.kind == 2

/-- The bytes of a shard's slot: the master image, then the momentum image (R365). -/
def slotBytes (x : Shard) : Nat :=
  let n := x.mats * x.rows * x.cols
  ceilDiv (rowBytes 0 n) 64 * 64 + ceilDiv (rowBytes 3 n) 64 * 64

/-- The bytes of one half of a shard's factors: L, R and their roots in FP32 (PRECOND only). -/
def factorBytes (s : State) (x : Shard) : Nat :=
  if (shardRule s x).kind = 2 then x.mats * 8 * (x.rows * x.rows + x.cols * x.cols) else 0

/-- The bytes of a shard's sketch halves, each item on a 64-byte boundary (R369). -/
def sketchBytes (s : State) (x : Shard) : Nat :=
  let r := shardRule s x
  if r.kind ≠ 3 then 0
  else
    let up := fun (n : Nat) => ceilDiv n 64 * 64
    let vec := (x.halves.getD 0 {}).sketch.any fun k => k.col.isEmpty
    2 * (if vec then up (4 * x.rows) else x.mats * (up (4 * x.rows) + up (4 * x.cols)
      + (if r.resid then up (ceilDiv (ceilDiv x.rows 16 * ceilDiv x.cols 16) 2) else 0)))

/-- The bytes that the secured state of a shard takes (R393): the slot, the factors and the sketch in use, the record. -/
def securedBytes (s : State) (x : Shard) : Nat :=
  let r := shardRule s x
  let vec := (x.halves.getD 0 {}).sketch.any fun k => k.col.isEmpty
  slotBytes x + factorBytes s x + (if r.kind = 3 then (if vec then 4 * x.rows else x.mats * (4 * (x.rows + x.cols)
      + (if r.resid then ceilDiv (ceilDiv x.rows 16 * ceilDiv x.cols 16) 2 else 0))) else 0) + 64

/-- R365: the shard record as both its copies hold it. -/
def shardRecord (x : Shard) : List Byte :=
  let b := leBytes 4 x.tensor ++ leBytes 1 x.rule ++ leBytes 1 (x.lagging.toNat + 2 * x.redo.toNat) ++ leBytes 2 0
    ++ leBytes 4 x.rows ++ leBytes 4 x.cols ++ leBytes 4 x.epoch.toNat ++ leBytes 4 0 ++ leBytes 8 x.step.toNat
    ++ leBytes 8 ((x.slots.getD 0 0).toNat % 2^48) ++ leBytes 8 ((x.slots.getD 1 0).toNat % 2^48) ++ leBytes 8 x.masterFp.toNat
  b ++ leBytes 4 (crc32c b) ++ leBytes 4 0

/-- The shadow pool's bytes, and those that updates hold (R367). -/
def poolBytes (s : State) : Nat := match thresherPlan s with
  | some p => p.shadowMib * 2^20
  | none => 0
def poolUsed (s : State) : Nat :=
  (s.thresher.shards.map fun x => if x.upd.any (·.slot) then slotBytes x else 0).sum

/-- The half in use (R364). DESIGN CHOICE: log entry 55. -/
def Shard.half (x : Shard) : ShardHalf := x.halves.getD (x.epoch.toNat % 2) {}

/-- The module whose owned state this module backs, and which backs its own (R20). -/
def buddyOf (s : State) : Option Nat :=
  if s.dev.position < 8 then s.ownId.map fun m => m - m % 8 + (m % 8 ^^^ 4) else none

def buddyFenced (s : State) : Bool := match buddyOf s with
  | some b => s.fenced.contains b
  | none => true

/-! ### The update constellation (R377) -/

def updCores (p : ThresherPlan) : Nat := ((List.range 128).filter p.updMask.getLsbD).length

/-- The constellation is released once the matrix work of every owned matrix shard of the window is done. -/
def releaseIfDone (s : State) : State :=
  match thresherPlan s with
  | none => s
  | some p =>
    let need := (s.thresher.shards.filter fun x => matrixRule (shardRule s x)).map (·.tensor)
    if s.thresher.held && need.all s.thresher.windowDone.contains then
      { s with thresher := { s.thresher with held := false, windowDone := [] } }.addTally p.ret (updCores p)
    else s

def updTake (s : State) : State :=
  match thresherPlan s with
  | none => s
  | some p =>
    let n := updCores p
    if n = 0 ∨ s.thresher.held = true
      ∨ State.atLeast (s.tally p.rsv) (BitVec.ofNat 32 ((s.thresher.windows + 1) * n)) = false then s
    else releaseIfDone { s with thresher := { s.thresher with
        held := true, windows := s.thresher.windows + 1, windowDone := [] } }

def execUpdConstellationTake (s : State) : Host.Outcome State Fault Refusal := powered s (updTake s)

/-- Is the window of step t held: window w serves the w-th step. -/
def windowHeld (s : State) (t : Nat) : Bool := s.thresher.held && s.thresher.windows == t + 1

/-- A shard's matrix work for step t is done or passed over. -/
def windowMark (s : State) (tensor t : Nat) : State :=
  if windowHeld s t then
    releaseIfDone { s with thresher := { s.thresher with windowDone := nsInsert tensor s.thresher.windowDone } }
  else s

/-! ### The update (R380 to R383) -/

/-- The gradient of step t that a shard keeps. -/
def Shard.grad (x : Shard) (t : Nat) : Option Grad :=
  match x.grads.getD (t % 2) none with
  | some g => if g.step = t then some g else none
  | none => none

/-- The journal header of R383. -/
def journalHeader (x : Shard) (t : Nat) (g : Grad) (image : List Byte) : List Byte :=
  let b := leBytes 4 x.tensor ++ leBytes 1 g.fmt ++ leBytes 3 0 ++ leBytes 8 t ++ leBytes 4 x.epoch.toNat ++ leBytes 4 0
    ++ leBytes 8 image.length ++ leBytes 8 (fingerprint image).toNat ++ leBytes 8 x.masterFp.toNat ++ leBytes 12 0
  b ++ leBytes 4 (crc32c b)

/-- Steps 1 and 2: an update begins for the kept gradient of the earliest step. -/
def updBegin (s : State) (x : Shard) : State :=
  let steps := x.grads.filterMap fun g => g.map (·.step)
  match lowest steps with
  | none => s
  | some t =>
    match x.grad t with
    | none => s
    | some g =>
      let image := tensorImage g.fmt g.elems
      let s := modShard s x.tensor fun x => { x with
        upd := some { step := t, sentAt := s.pst.up }
        sent := x.sent.filter (fun e => decide (t < e.step + 2)) ++ [JrnlSent.mk t false] }
      match buddyOf s with
      | some b => if buddyFenced s then s else s.send (.journal b (journalHeader x t g image) image)
      | none => s

/-- Step 3: a region of the shadow pool is taken, where one is free; its base is free. DESIGN CHOICE: log entry 54. -/
def updSlot (s : State) (x : Shard) (u : Upd) : State :=
  if u.slot then s
  else if poolUsed s + slotBytes x ≤ poolBytes s then
    let base := BitVec.ofNat 64 ((Config.freeDWord s.freeCtr).toNat % 2^48)
    modShard { s with freeCtr := s.freeCtr + 1 } x.tensor fun x => { x with
      slots := x.slots.set ((x.epoch.toNat + 1) % 2) base, upd := x.upd.map fun u => { u with slot := true } }
  else if u.poolWait then s
  else modUpd (s.incReg .thrPoolWait) x.tensor fun u => { u with poolWait := true }

/-- Steps 4 to 6: the shadow half and the new master's fingerprint; nothing while a line that the update reads is
poisoned, or while the matrix work waits for its window. -/
def updCompute (s : State) (tensor : Nat) : State :=
  match ownShard s tensor with
  | none => s
  | some x =>
    match x.upd with
    | none => s
    | some u =>
      match x.grad u.step with
      | none => s
      | some g =>
        let r := shardRule s x
        if !u.slot || u.next.isSome || g.poison || x.poison || (matrixRule r && !windowHeld s u.step) then s
        else
          let eta := Up.rate (match s.plan with
            | some p => p.schedules.getD r.sched []
            | none => []) u.step
          let gv := g.elems.map fun w => (F.round (elemVal g.fmt w)).1
          let h := newHalf r eta u.step s.freeCtr x x.half gv
          let s := { s with freeCtr := s.freeCtr + 1 }
          let s := modShard s tensor fun x => { x with
            halves := x.halves.set ((x.epoch.toNat + 1) % 2) h
            upd := x.upd.map fun u => { u with next := some (masterFpOf h.master) } }
          windowMark s tensor u.step

/-- Steps 3 to 6 of the update in progress. DEDUCED: log entry 56. -/
def updRun (s : State) (tensor : Nat) : State :=
  match ownShard s tensor with
  | none => s
  | some x =>
    match x.upd with
    | none => s
    | some u => updCompute (updSlot s x u) tensor

/-- R314: the instance of a tensor is in a turn. -/
def inTurn (s : State) (tensor : Nat) : Bool := match s.plan with
  | some p => p.instances.any fun i => (SMap.get {} s.insts i.id).turn.isSome && i.tensors.any fun t => t.id == tensor
  | none => false

/-- R380: an update of a shard up to the wait of step 7. THR_CTRL.ENABLE 0 starts none, nor does a turn of the instance
(R314); one that has started runs on. -/
def shardUpdate (s : State) (tensor : Nat) : State :=
  match ownShard s tensor with
  | none => s
  | some x =>
    if x.upd.isSome then updRun s tensor
    else if s.fld .thrCtrl 0 [] 0 0 = 0 ∨ inTurn s tensor = true then s
    else updRun (updBegin s x) tensor

def execShardUpdate (tensor : Nat) (s : State) : Host.Outcome State Fault Refusal := powered s (shardUpdate s tensor)

/-- Has the buddy acknowledged the record of a step. -/
def Shard.acked (x : Shard) (t : Nat) : Bool := x.sent.any fun e => e.step == t && e.acked

/-- Does step 7's wait hold the flip. DEDUCED: log entry 56. -/
def flipWaits (s : State) (x : Shard) (u : Upd) : Bool := !(x.acked u.step || u.waitOver || buddyFenced s)

/-- Step 8: the commit of an update. -/
def shardFlip (s : State) (tensor : Nat) : State :=
  match ownShard s tensor with
  | none => s
  | some x =>
    match x.upd with
    | none => s
    | some u =>
      match u.next with
      | none => s
      | some fp =>
        if s.fld .thrCtrl 0 [] 1 1 = 1 ∨ x.poison = true ∨ flipWaits s x u = true then s
        else
          let flip := fun (x : Shard) => { x with
            epoch := x.epoch + 1, step := BitVec.ofNat 64 u.step, masterFp := fp, redo := false
            grads := modAt (fun _ => none) (u.step % 2) x.grads, settled := max x.settled (u.step + 1), upd := none }
          let s := modShard s tensor flip
          let s := s.incReg .thrUpdDone
          let s := if x.acked u.step then s else s.incReg .thrJrnlUnack
          match buddyOf s with
          | some b => if buddyFenced s then s else s.send (.secure b tensor u.step (securedBytes s x) (shardRecord (flip x)))
          | none => s

def execShardFlip (tensor : Nat) (s : State) : Host.Outcome State Fault Refusal := powered s (shardFlip s tensor)

/-! ### The journal (R384, R385) -/

/-- Is a journal header whole and its CHECK correct. DEDUCED: log entry 59. -/
def headerGood (h : List Byte) : Bool :=
  h.length == 64 && crc32c (h.take 60) == fieldAt h 60 4 && decide (fieldAt h 4 1 < 16) && zeroAt h 5 3 && zeroAt h 20 4
  && zeroAt h 48 12

/-- A record of the module that this one backs: verified, kept in the half of its step, and acknowledged.
DEDUCED: log entry 59. -/
def journalRecord (s : State) (owner : Nat) (j : JournalMsg) : State :=
  let h := j.header
  let ok := fun (b : List Byte) => decide ((fingerprint b).toNat = fieldAt h 32 8) && b.length == fieldAt h 24 8
  if buddyOf s ≠ some owner ∨ s.fenced.contains owner = true ∨ headerGood h = false then s
  else
    match (if ok j.image then some j.image else if ok j.again then some j.again else none) with
    | none => s
    | some b =>
      let t := fieldAt h 8 8
      let tensor := fieldAt h 0 4
      let keep := s.thresher.journal.filter fun r =>
        !(r.owner == owner && r.tensor == tensor && r.step % 2 == t % 2)
      { s with thresher := { s.thresher with journal := keep ++ [JrnlRec.mk owner tensor t h b] }
        }.send (.journalAck owner tensor t)

/-- The buddy acknowledges a record. -/
def journalAck (s : State) (tensor step : Nat) : State :=
  match ownShard s tensor with
  | none => s
  | some x =>
    if x.sent.any fun e => e.step == step && !e.acked then
      modShard (s.incReg .thrJrnlSent) tensor fun x => { x with
        sent := x.sent.map fun e => if e.step = step then { e with acked := true } else e }
    else s

def execJournalAck (tensor : Nat) (step : DWord) (s : State) : Host.Outcome State Fault Refusal :=
  powered s (journalAck s tensor step.toNat)

/-- JRNL_WAIT_MS has passed since step 2. -/
def jrnlTimeout (s : State) (tensor : Nat) : State :=
  match thresherPlan s, (ownShard s tensor).bind (·.upd) with
  | some p, some u => if s.pst.up ≥ u.sentAt + p.jrnlWaitMs * 10^6 then modUpd s tensor fun u => { u with waitOver := true } else s
  | _, _ => s

def execJrnlWaitTimeout (tensor : Nat) (s : State) : Host.Outcome State Fault Refusal := powered s (jrnlTimeout s tensor)

/-! ### Redos (R386, R387, R395) -/

/-- The step that a half holds as a position in time: −1 after a publication. -/
def stepPos (v : DWord) : Int := if v = 0xFFFFFFFFFFFFFFFF#64 then -1 else v.toNat

/-- R395: can the buddy bring the shard to its last flipped step exactly. -/
def covered (s : State) (x : Shard) : Bool :=
  !buddyFenced s &&
  match x.secured with
  | none => false
  | some p =>
    let sec : Int := (p : Int) - 1
    let last := stepPos x.step
    decide (sec ≤ last) && decide (last ≤ sec + 2)
      && (List.range (last - sec).toNat).all fun i => x.acked (sec + 1 + i).toNat

/-- R387: the shard keeps its halves, does not flip for the step, and one record is written. -/
def makeLagging (s : State) (tensor t : Nat) : State :=
  let s := modShard s tensor fun x => { x with
    lagging := true, redo := false, upd := none, settled := max x.settled (t + 1)
    grads := modAt (fun g => if g.any fun g => g.step == t then none else g) (t % 2) x.grads }
  windowMark (s.record 0x0024 9 0 (leBytes 4 tensor ++ leBytes 8 t)) tensor t

/-- A redo from step 3, with what was poisoned replaced. -/
def redo (s : State) (tensor t : Nat) : State :=
  let s := modShard (s.incReg .thrRedo) tensor fun x => { x with
    redo := true
    grads := modAt (fun g => g.map fun g => { g with poison := false }) (t % 2) x.grads
    upd := x.upd.map fun u => { u with next := none, redos := u.redos + 1 } }
  updRun s tensor

/-- R379: is there another member of the update constellation to run the bands of member `k`. -/
def otherMember (s : State) (k : Nat) : Bool := match thresherPlan s with
  | some p => (List.range 128).any fun i => i != k && p.updMask.getLsbD i && !s.dev.pend.cores.getLsbD i
  | none => false

/-- R379, R417: the core whose instruction ended with FAULT_HALT becomes fallow at the next start. -/
def markMember (s : State) (k : Nat) : State :=
  setPend s { s.dev.pend with cores := s.dev.pend.cores ||| BitVec.ofNat 128 (2^k) }

/-- R386: an update that stops before its flip, by its cause. -/
def updStopped (s : State) (tensor : Nat) (cause : RedoCause) : State :=
  match ownShard s tensor with
  | none => s
  | some x =>
    match x.upd with
    | none => s
    | some u =>
      let t := u.step
      let acked := x.acked t
      let bad := decide (cause = .poisonedGradient) || (x.grad t).any (·.poison)
      if u.redos ≥ 2 then makeLagging s tensor t
      else
        match cause with
        | .reset => if acked then redo s tensor t else makeLagging s tensor t
        | .poisonedHalf =>
          if covered s x then redo (modShard s tensor fun x => { x with poison := false }) tensor t
          else makeLagging (modShard s tensor fun x => { x with poison := true }) tensor t
        | _ => if bad && !acked then makeLagging s tensor t else redo s tensor t

/-- R379, R386: an update that stops before its flip. A member's FAULT_HALT stops none while another member can run its
bands: the result is the same. DEDUCED: log entry 56. -/
def updateRedo (s : State) (tensor : Nat) (cause : RedoCause) : State :=
  match cause with
  | .memberFault k =>
    if s.thresher.held && (ownShard s tensor).any (fun x => x.upd.isSome && matrixRule (shardRule s x)) then
      let s := markMember s k
      if otherMember s k then s else updStopped s tensor .constellation
    else s
  | _ => updStopped s tensor cause

def execUpdateRedo (tensor : Nat) (cause : RedoCause) (s : State) : Host.Outcome State Fault Refusal :=
  powered s (updateRedo s tensor cause)

/-! ### THR_CTRL (R389) -/

def holdFlips (s : State) (hold : Bool) : State := s.setFld .thrCtrl 0 [] 1 1 hold.toNat

def execThrHoldFlips (hold : Bool) (s : State) : Host.Outcome State Fault Refusal := powered s (holdFlips s hold)

def execThrEnable (en : Bool) (s : State) : Host.Outcome State Fault Refusal :=
  powered s (s.setFld .thrCtrl 0 [] 0 0 en.toNat)

end Sys2Proof.Machine
end

