-- ==== Sys2Proof/Machine/Serving.lean ====
section
/-! DEFINITION. Pages, admission, steps, commits, turn commits at a boundary, adapters and held steps (R228 to R288,
R308 to R332). -/

namespace Sys2Proof.Machine

/-! ### The sheaf (R21, R260) -/

/-- The module ID of a position of this sheaf (R21). -/
def atPos (s : State) (p : Nat) : Nat := 8 * s.dev.sheaf + p

/-- A position of this sheaf whose module is active and not fenced. -/
def posActive (s : State) (p : Nat) : Bool := decide (p < 8) && !s.fenced.contains (atPos s p)

/-- The scheduler of the sheaf's steps: the lowest-positioned active module that is not fenced (R260). -/
def schedulerPos (s : State) : Option Nat := (List.range 8).find? (posActive s)

def isScheduler (s : State) : Bool := decide (schedulerPos s = some s.dev.position)

/-- Is a slot's home this module. -/
def homedHere (s : State) (x : Slot) : Bool := decide (x.home = s.dev.position)

/-! ### Key-value pages (R230 to R239, R250) -/

/-- SPLIT_P where the sequence is split, else 1 (R262). -/
def splitOf (p : PoolPlan) (r : GenReq) : Nat := if p.splitP > 1 ∧ reqMaxpos r ≥ p.splitAt then p.splitP else 1

/-- The positions of the members over which a pool splits a sequence (R250). -/
def splitMembers (p : PoolPlan) : List Nat := if p.splitOver.isEmpty then List.range p.splitP else p.splitOver

/-- A position's index among those members. -/
def memberIndex (p : PoolPlan) (pos : Nat) : Option Nat := (splitMembers p).findIdx? (· = pos)

/-- The attention layers of an instance, with their indices among its records. -/
def attLayers (s : State) (i : Nat) : List (Nat × List Byte) :=
  match planInst s i with
  | none => []
  | some p => (p.attention.mapIdx fun l r => (l, r)).filter fun l => kvLayer l.2

/-- The KV heads of a layer that a position lists for a request: its own, or every one in a split sequence. -/
def headsFor (p : PoolPlan) (r : GenReq) (pos : Nat) (rec_ : List Byte) : Nat :=
  if splitOf p r = 1 then kvHeads (fieldAt rec_ 6 2) pos
  else if (memberIndex p pos).isSome then fieldAt rec_ 6 2 else 0

/-- The pages that the first `n` positions of a request take on a position (R236, R250). -/
def pagesFor (s : State) (p : PoolPlan) (r : GenReq) (pos n : Nat) : Nat :=
  ((attLayers s p.inst).map fun l =>
    localPages (kvSigma l.2) (splitOf p r) ((memberIndex p pos).getD 0) r.promptLen n * headsFor p r pos l.2).sum

/-- R236: the pages that a request reserves on a position, and on this module. -/
def reservationAt (s : State) (p : PoolPlan) (r : GenReq) (pos : Nat) : Nat := pagesFor s p r pos (reqMaxpos r)
def reservation (s : State) (p : PoolPlan) (r : GenReq) : Nat := reservationAt s p r s.dev.position

/-- R239: the positions of the first chunk that must be whole. -/
def wholeChunk (s : State) (p : PoolPlan) (prompt : Nat) : Nat :=
  ((attLayers s p.inst).map fun l => layerWhole l.2 prompt).foldl max 0

/-- The page count of a position's KV pool, and of this module's (R230). -/
def kvPagesAt (s : State) (pos : Nat) : Nat := match s.plan with
  | some p => p.kvPagesAt.getD pos p.kvPages
  | none => 0
def kvPagesOf (s : State) : Nat := kvPagesAt s s.dev.position

/-- The pages that a slot reserves on a position. -/
def slotPagesAt (s : State) (pos : Nat) (x : Slot) : Nat :=
  if pos = s.dev.position then x.pages
  else match planPool s x.req.pool with
    | some p => reservationAt s p x.req pos
    | none => 0

/-- The pages reserved on a position, and on this module. -/
def pagesHeldAt (s : State) (pos : Nat) : Nat := (s.serving.slots.map fun x => slotPagesAt s pos x.2).sum
def pagesHeld (s : State) : Nat := (s.serving.slots.map fun x => x.2.pages).sum

/-- The positions whose modules a request needs (R259). -/
def needsOf (s : State) (p : PoolPlan) (r : GenReq) : List Nat :=
  if splitOf p r = 1 then nsInsert s.dev.position ((List.range 8).filter fun q =>
    s.plan.any fun pl => pl.modules.any fun m => m.toNat == atPos s q)
  else splitMembers p

/-- R265: does a reservation fit on every module that the request needs, beside `extra` more pages on each. -/
def fitsAll (s : State) (p : PoolPlan) (r : GenReq) (extra : Nat → Nat) : Bool :=
  (needsOf s p r).all fun q =>
    decide ((if q = s.dev.position then pagesHeld s else pagesHeldAt s q) + extra q + reservationAt s p r q ≤ kvPagesAt s q)

/-- R235: the page lists of a request on this module, empty. -/
def freshLists (s : State) (p : PoolPlan) (r : GenReq) : List KvList :=
  (attLayers s p.inst).map fun l => { layer := l.1, heads := headsFor p r s.dev.position l.2 }

/-- The pages of the pool that are in use here. -/
def usedPages (s : State) : List Nat :=
  (s.serving.slots.map fun x => (x.2.lists.map KvList.pages).flatten ++ x.2.old).flatten

/-- The record of an attention layer of an instance. -/
def layerRec (s : State) (i l : Nat) : List Byte := ((planInst s i).map fun p => p.attention.getD l []).getD []

/-- R236: a slot takes the pages that its first `n` positions need here and that its lists do not name yet. -/
def takePages (s : State) (i n : Nat) : State :=
  match slot? s i with
  | none => s
  | some x => match planPool s x.req.pool with
    | none => s
    | some p =>
      let m := (memberIndex p s.dev.position).getD 0
      let (t, ls) := x.lists.foldl (fun (st : KvTake × List KvList) l =>
        let need := localPages (kvSigma (layerRec s p.inst l.layer)) x.split m x.req.promptLen n * l.heads - l.first.length
        let (t, l) := takeEntries (kvPagesOf s) need st.1 l
        (t, st.2 ++ [l])) (⟨usedPages s, x.old⟩, [])
      modSlot s i fun x => { x with lists := ls, old := t.old }

/-- R246: what the page lists of a slot give for `r` queries from position q0 on, with n positions held. -/
def walkEnds (s : State) (x : Slot) (n q0 r : Nat) : Option Status :=
  match planPool s x.req.pool with
  | none => none
  | some p => x.lists.findSome? fun l =>
    listEnds (kvPagesOf s) x.split ((memberIndex p s.dev.position).getD 0) x.req.promptLen (layerRec s p.inst l.layer) l n q0 r

/-- R246: a sequence ends for what its page lists hold; another home is told, and its rows are masked here. -/
def endSequence (s : State) (i : Nat) (st : Status) : State :=
  match slot? s i with
  | none => s
  | some x =>
    let s := s.recordEvent 0 0
    if homedHere s x then endSlot s i 4 st
    else (modSlot s i fun x => { x with
      state := .ending, end_ := 4, endStatus := st, masked := true }).send (.sequenceFault i st)

/-! ### Admission (R264 to R266) -/

def poolSlots (s : State) (pool : Nat) : Nat := (s.serving.slots.filter fun x => x.2.req.pool = pool).length

/-- The lowest slot index that is free. -/
def freeIndex (s : State) : Option Nat := (List.range 16384).find? fun i => (slot? s i).isNone

def adapter? (s : State) (i id : Nat) : Option Adapter := s.serving.adapters.find? fun a => a.inst = i && a.id = id

/-- The version of an adapter that a request binds. -/
def adapterBinds (s : State) (i : Nat) (r : GenReq) : Word :=
  if r.adapterEn then ((adapter? s i r.adapterId).bind (·.current)).getD 0 else 0

def curVer (x : Inst) : Word := match x.current with
  | some v => v.num
  | none => 0

/-- Does the instance of a pool have an EXPLICIT layer (R237). -/
def explicitMask (s : State) (i : Nat) : Bool := (attLayers s i).any fun l => fieldAt l.2 2 1 % 8 == 4

/-- The slot of a request at its admission (R266). Where the page lists and the bitmaps lie is not stated: a free value.
DEDUCED: log entry 62. DESIGN CHOICE: log entry 127. -/
def admittedSlot (s : State) (p : PoolPlan) (r : GenReq) (home : Nat) : Slot := {
  state := .prefill, req := r, split := splitOf p r, adapterVer := adapterBinds s p.inst r
  policy := if r.pin then r.policyVer else curVer (inst s p.inst)
  home := home, pages := reservation s p r, lists := freshLists s p r, fill := r.promptLen
  pageList := (Config.freeDWord s.freeCtr).toNat % 2^48
  maskList := if explicitMask s p.inst then (Config.freeDWord (s.freeCtr + 1)).toNat % 2^48 else 0
  admitStep := s.serving.step, admitTime := s.pst.now }

/-- One request admitted into a slot, whose record goes to every module (R261, R266). SUP_SRV_ADMIT counts at the home. -/
def admitOne (s : State) (p : PoolPlan) (q : Queued) (i : Nat) : State :=
  let x := admittedSlot s p q.req (q.home.getD s.dev.position)
  let s := { s with
    freeCtr := s.freeCtr + 2
    serving := { s.serving with
      queue := s.serving.queue.filter fun y => y.req.reqId ≠ q.req.reqId
      slots := SMap.set s.serving.slots i x } }.send (.slotRecord i (slotImage 1 x))
  if q.home.isNone then s.incReg .supSrvAdmit else s

/-- The instance of a pool holds its step (R284). -/
def poolHeld (s : State) (pool : Nat) : Bool := (inst s (poolInst s pool)).hold.isSome

/-- Admission in arrival order; a pool whose first request cannot be admitted admits none behind it. A pinned version
that is no longer resident cannot be bound, and neither can an adapter that has gone. DEDUCED: log entry 62. -/
def admitQueue (s : State) : List Queued → List Nat → State
  | [], _ => s
  | q :: t, blocked =>
    let pool := q.req.pool
    if blocked.contains pool ∨ poolPaused s pool = true ∨ poolHeld s pool = true then admitQueue s t blocked
    else
      match planPool s pool, freeIndex s with
      | some p, some i =>
        if poolSlots s pool < p.slots ∧ fitsAll s p q.req (fun _ => 0) = true then
          admitQueue (admitOne s p q i) t blocked
        else admitQueue s t (pool :: blocked)
      | _, _ => admitQueue s t (pool :: blocked)

/-! ### Versions at a boundary (R312, R322 to R324) -/

def slotsBound (s : State) (i : Nat) (ver : Word) : Nat :=
  (s.serving.slots.filter fun x => poolInst s x.2.req.pool == i && x.2.policy == ver).length

/-- The draining version freed once no slot is bound to it. -/
def freeDraining (s : State) (i : Nat) : State :=
  match (inst s i).draining with
  | some d => if slotsBound s i d.num = 0 then modInst s i fun x => { x with draining := none } else s
  | none => s

/-- Adapter versions freed that no slot is bound to and that are not current (R283). -/
def freeAdapters (s : State) : State :=
  let bound := fun (a : Adapter) (v : Word) => s.serving.slots.any fun x =>
    x.2.req.adapterEn && poolInst s x.2.req.pool == a.inst && x.2.req.adapterId == a.id && x.2.adapterVer == v
  { s with serving := { s.serving with adapters := s.serving.adapters.map fun a => { a with
      versions := a.versions.filter fun v =>
        decide (a.current = some v.num) || decide (a.next = some v.num) || bound a v.num } } }

/-- R236, R267, R268: ENDING slots free their pages, references and indices: with the slot go the entries of its page
lists, whose V is 0 in both copies from then on, and its reservation. -/
def freeEnded (s : State) : State :=
  let s := { s with serving := { s.serving with slots := s.serving.slots.filter fun x => x.2.state ≠ .ending } }
  freeAdapters ((SMap.keys s.insts).foldl freeDraining s)

def isCutover (s : State) (pool : Nat) : Bool := match planPool s pool with
  | some p => p.cutover
  | none => false

/-- A sequence moved to a new version: its records carry MIXED_VERSION. The home counts it (R335). -/
def moveSlot (s : State) (i : Nat) (ver : Word) : State :=
  match slot? s i with
  | none => s
  | some x =>
    let s := modSlot s i fun x => { x with policy := ver, mixed := true }
    modInst (flagWhere s (poolInst s x.req.pool) (fun r => r.reqId == x.req.reqId) 1) (poolInst s x.req.pool) fun u => { u with
      mixed := Word.incSat u.mixed (homedHere s x).toNat }

/-- The turn record (R325). -/
def turnRecord (i : Nat) (t : Turn) (new old : Word) (st : Status) (detail flags tensors commit moved : Nat) : List Byte :=
  leBytes 4 new.toNat ++ leBytes 4 old.toNat ++ leBytes 2 i ++ leBytes 1 (statusCode st) ++ leBytes 1 detail
  ++ leBytes 4 (flags + t.forced.toNat + 8 * t.retry.toNat) ++ leBytes 4 t.lagging ++ leBytes 4 tensors ++ leBytes 8 t.t0
  ++ leBytes 8 commit ++ leBytes 8 t.bytes ++ leBytes 4 moved ++ leBytes 4 t.refetch ++ leBytes 8 t.step.toNat

/-- The record written to the Almanac as a pair, and kept for the status query. -/
def writeTurn (s : State) (i : Nat) (rec_ : List Byte) : State :=
  let s := modInst s i fun x => { x with lastTurn := rec_ }
  (s.record 0x0030 0 0 (rec_.take 32)).record 0x0030 0 0 (rec_.drop 32) 4

/-- R382: a published set's masters: each owned shard flips to them with STEP all ones and no journal wait. -/
def loadMasters (s : State) (p : Published) : State :=
  p.images.foldl (fun s im =>
    match ownShard s im.1 with
    | none => s
    | some x =>
      let n := x.mats * x.rows * x.cols
      let m := (List.range n).map fun i =>
        BitVec.ofNat 32 ((F.mul (elemVal im.2.1 (elemAt im.2.1 (fun j => im.2.2.2.getD j 0) i))
          (fp32.decode im.2.2.1.toNat)).1.enc fp32)
      let vec := x.half.sketch.any fun k => k.col.isEmpty
      let h := startHalf (shardRule s x) vec x.mats x.rows x.cols m
      (modShard s im.1 fun x => { x with
        halves := x.halves.set ((x.epoch.toNat + 1) % 2) h, epoch := x.epoch + 1, step := 0xFFFFFFFFFFFFFFFF#64
        masterFp := masterFpOf m }).incReg .thrUpdDone) s

/-- Is no update of an instance in progress. -/
def noUpdates (s : State) (i : Nat) : Bool :=
  match planInst s i with
  | some p => s.thresher.shards.all fun x => !(p.tensors.any fun t => t.id = x.tensor) || x.upd.isNone
  | none => true

/-- R322 to R324: a commit, or a publication, applied at the sheaf's boundary. -/
def applyVersion (s : State) (i : Nat) (v : Version) (forcedMem : Bool) (turn : Option Turn) : State :=
  let x := inst s i
  let dr := match x.draining with
    | some d => if slotsBound s i d.num > 0 then some d.num else none
    | none => none
  let goes := fun (sl : Nat × Slot) => poolInst s sl.2.req.pool == i && sl.2.state != .ending
    && (forcedMem || isCutover s sl.2.req.pool || decide (dr = some sl.2.policy))
  let moved := s.serving.slots.filter goes
  let s := moved.foldl (fun s sl => moveSlot s sl.1 v.num) s
  let s := modInst s i fun x => { x with
    current := some v, draining := if forcedMem then none else x.current
    commit := none, commitForced := false, commitTurn := none
    phase := if turn.isSome ∨ x.phase = .unavailable then .generation else x.phase, nextPhase := none, retry := false }
  let s := freeDraining s i
  match turn with
  | none => s
  | some t =>
    let s := modInst s i fun x => { x with
      turns := Word.incSat x.turns 1
      turnsForced := if forcedMem || dr.isSome then Word.incSat x.turnsForced 1 else x.turnsForced }
    let st := if t.lagging > 0 then Status.lagging else .ok
    let s := if forcedMem then s.recordEvent 0 0 else s
    writeTurn s i (turnRecord i t v.num (curVer x) st (min t.lagging 255) (if dr.isSome then 2 else 0) t.table.length
      x.commitAt moved.length)

/-- R279: the steering basis comes with the instance's weight set: the tensor that the plan names.
DESIGN CHOICE: log entry 128. -/
def loadBasis (s : State) (i : Nat) (p : Published) : State :=
  match ((planInst s i).bind (·.basis)).bind fun t => p.images.find? fun im => im.1 = t with
  | some im => modInst s i fun x => { x with basis := some (im.2.1, im.2.2.2) }
  | none => s

/-- One instance at a boundary: a commit, else a publication that is not held, else a phase that was decided. -/
def boundaryInst (s : State) (i : Nat) : State :=
  let x := inst s i
  match x.commit with
  | some v => applyVersion s i v x.commitForced x.commitTurn
  | none =>
    match x.published with
    | p :: rest =>
      if (phaseOf s i = .generation ∨ phaseOf s i = .unavailable) ∧ noUpdates s i = true then
        let s := modInst s i fun x => { x with published := rest }
        let num := curVer x + 1
        if num = 0xFFFFFFFF#32 then completeWaiting s (.weightSet i p.setId p.setVer) .outOfRange 0x20
        else
          let s := loadBasis (applyVersion s i ⟨num, p.table⟩ false none) i p
          let s := if (cycle? s i).isSome then loadMasters s p else s
          completeWaiting s (.weightSet i p.setId p.setVer) .ok 0 (leBytes 4 num.toNat)
      else modInst s i fun x => { x with phase := phaseOf s i, nextPhase := none }
    | [] =>
      let s := modInst s i fun x => { x with phase := phaseOf s i, nextPhase := none }
      if (inst s i).phase = .learning then completeWaiting s (.learn i) .ok 0 else s

/-- The completions owed to an adapter ID's publications and, where it was deleted, to its deletion.
DEDUCED: log entry 66. -/
def completeAdapter (s : State) (i id : Nat) (deleted : Bool) : State :=
  let due := (s.service.waiting.map (·.why)).filter fun w => match w with
    | .adapterPut j k _ => j == i && k == id
    | .adapterDel j k => j == i && k == id && deleted
    | _ => false
  due.foldl (fun s w => completeWaiting s w .ok 0) s

/-- Is a version present on every module that serves its instance, by what the others have reported (R282). -/
def adapterPresent (s : State) (present : List (Nat × Nat × Word)) (a : Adapter) : Bool :=
  (match s.plan with
    | some p => decide (p.modules.length ≤ 1)
    | none => true) || (match a.next with
      | some v => present.contains (a.inst, a.id, v)
      | none => true)

/-- Adapters at a boundary: a version that is ready becomes current, a deletion takes effect (R282, R283).
DEDUCED: log entry 66. -/
def boundaryAdapters (s : State) (present : List (Nat × Nat × Word)) : State :=
  s.serving.adapters.foldl (fun s a =>
    if (a.next.isNone || !adapterPresent s present a) && !a.deleting then s
    else
      let s := { s with serving := { s.serving with adapters := s.serving.adapters.map fun b =>
        if b.inst = a.inst ∧ b.id = a.id then { b with current := a.next, next := none, deleting := false } else b } }
      completeAdapter s a.inst a.id a.deleting) s

/-- What a step boundary does before any step is formed. -/
def boundary (s : State) (present : List (Nat × Nat × Word)) : State :=
  let s := freeEnded (readClocks s)
  let s := (SMap.keys s.insts).foldl boundaryInst s
  freeAdapters (boundaryAdapters { s with serving := { s.serving with lastBoundary := s.pst.up } } present)

/-! ### What other modules send (R259 to R261, R282) -/

/-- R255: a sequence is to prefill every position that it holds, its prompt and its committed tokens, into fresh pages;
its old pages stay until it has, and the token of the step is withheld. DEDUCED: log entry 126. -/
def refillSlot (x : Slot) : Slot := { x with
  old := x.old ++ (x.lists.map KvList.pages).flatten, lists := x.lists.map fun l => { l with first := [], second := [] }
  fill := x.req.promptLen + x.generated, held := 0, placed := 0, samples := false }

/-- A copy of a slot brought up to its home's record: what this module holds of its own stays. -/
def updateCopy (x y : Slot) : Slot :=
  let z := { y with
    req := x.req, pages := x.pages, lists := x.lists, old := x.old, fill := x.fill, held := x.held, placed := x.placed
    samples := x.samples, committed := x.committed, masked := x.masked || y.state == .ending }
  if y.held < x.held && y.state != .ending then refillSlot z else z

/-- A new slot from a record: this module's own request, or a copy of another home's, on every module, or of a split
sequence on its members (R259). -/
def newCopy (s : State) (i : Nat) (y : Slot) : State :=
  let q := s.serving.queue.find? fun q => q.req.reqId = y.req.reqId
  let r := match q with
    | some q => if homedHere s y then q.req else y.req
    | none => y.req
  match planPool s r.pool with
  | none => s
  | some p =>
    if homedHere s y && q.isNone then s
    else if y.split ≠ 1 ∧ (memberIndex p s.dev.position).isNone ∧ homedHere s y = false then s
    else
      let x := { y with req := r, pages := reservation s p r, lists := freshLists s p r }
      let s := { s with serving := { s.serving with
        queue := s.serving.queue.filter fun q => q.req.reqId ≠ r.reqId, slots := SMap.set s.serving.slots i x } }
      if homedHere s y then s.incReg .supSrvAdmit else s

/-- A slot record received (R261). The home's copy is authoritative: a record of its own slot changes nothing there. -/
def takeRecord (s : State) (e : Nat × List Byte) : State :=
  match slotOf e.2, slot? s e.1 with
  | none, some x => if homedHere s x then s
      else { s with serving := { s.serving with slots := SMap.del s.serving.slots e.1 } }
  | none, none => s
  | some y, some x =>
    if homedHere s x ∨ x.req.reqId ≠ y.req.reqId then s else modSlot s e.1 fun x => updateCopy x y
  | some y, none => newCopy s e.1 y

/-- The requests of other homes that wait, in their order of arrival: those known keep their places, and one that waits no
longer is gone. DEDUCED: log entry 63. -/
def takeQueued (s : State) (l : List (List Byte)) : State :=
  let ws := l.map slotRead
  let known := fun (id : DWord) => s.serving.queue.any (fun q => q.req.reqId == id)
    || s.serving.slots.any fun x => x.2.req.reqId == id
  { s with serving := { s.serving with
    queue := (s.serving.queue.filter fun q => q.home.isNone || ws.any fun x => x.req.reqId == q.req.reqId)
      ++ (ws.filter fun x => !known x.req.reqId).map fun x =>
        { req := x.req, ran := 0, since := s.pst.up, home := some x.home } } }

/-- An adapter image that another home has published is stored here, in two copies (R282). -/
def storeAdapter (s : State) (i : Nat) (im : List Byte) : State :=
  let id := fieldAt im 4 2
  let v : Word := BitVec.ofNat 32 (fieldAt im 8 4)
  let old := (adapter? s i id).getD ⟨i, id, fieldAt im 6 2 % 4096, [], none, none, false, 0⟩
  let new := { old with
    tenant := fieldAt im 6 2 % 4096, versions := old.versions ++ [{ num := v, image := im, copy := im }], next := some v, top := v }
  { s with serving := { s.serving with
    adapters := (s.serving.adapters.filter fun a => !(a.inst == i && a.id == id)) ++ [new] } }

/-! ### The phase LEARNING (R310) -/

/-- The job's turn coordinator: the lowest-numbered active module that is not fenced (R310). -/
def coordinator (s : State) : Option Nat :=
  s.plan.bind fun p => lowest ((p.modules.map BitVec.toNat).filter fun m => !s.fenced.contains m)

def isCoordinator (s : State) : Bool := s.ownId.isSome && coordinator s == s.ownId

/-- LEARNING is decided: it counts the steps settled from here and the rewards anew. -/
def beginLearning (s : State) (i : Nat) : State :=
  let from_ := (s.thresher.shards.map (·.settled)).foldl max 0
  modInst (setPhase s i .learning) i fun x => { x with learnFrom := from_, rewarded := 0 }

/-- The coordinator decides LEARNING for the job. -/
def decideLearning (s : State) (i : Nat) : State := (beginLearning s i).send (.learning i)

/-- R309, R310: rewarded ended sequences, counted job-wide at the coordinator; MIN_SEQ reached with AUTO_LEARN begins
LEARNING. Another module reports its own. -/
def countRewarded (s : State) (i n : Nat) : State :=
  if isCoordinator s then
    let s := modInst s i fun x => { x with rewarded := x.rewarded + n }
    match cycle? s i with
    | some c =>
      if bit (fieldAt c 2 1) 0 ∧ phaseOf s i = .generation ∧ (inst s i).rewarded ≥ fieldAt c 4 4 ∧ s.nwt.learnStopped = false
      then decideLearning s i else s
    | none => s
  else s.send (.rewarded i)

/-- Another module's decision and counts, as they reach this one. -/
def takeLearning (s : State) (n : SheafNews) : State :=
  if isCoordinator s then n.rewarded.foldl (fun s e => countRewarded s e.1 e.2) s
  else n.learning.foldl (fun s i => if (cycle? s i).isSome ∧ phaseOf s i = .generation then beginLearning s i else s) s

/-- Everything that has reached the module. -/
def takeNews (s : State) (n : SheafNews) : State :=
  let s := takeLearning s n
  let s := n.images.foldl (fun s e => storeAdapter s e.1 e.2) s
  let s := n.records.foldl takeRecord s
  if isScheduler s then takeQueued s n.queued else s

/-! ### The step (R260, R269 to R271) -/

/-- The positions that a slot still has to prefill: of its prompt, or of what a rebuild restores (R255). -/
def leftToFill (x : Slot) : Nat := x.fill - x.held

/-- Prefill chunks in admission order, while rows are left; a chunk that must be whole and does not fit holds those
behind it back. -/
def placeChunks (s : State) (p : PoolPlan) : List (Nat × Slot) → Nat → List (Nat × Nat)
  | [], _ => []
  | (i, x) :: t, rows =>
    let whole := if x.held = 0 then wholeChunk s p x.req.promptLen else 0
    let chunk := match p.chunk with
      | some c => c
      | none => min 1024 p.stepTokens
    let n := min (max whole (min chunk (leftToFill x))) (leftToFill x)
    if rows = 0 ∨ (rows < whole) then []
    else
      let n := min n rows
      (i, n) :: placeChunks s p t (rows - n)

def admitBefore (a b : Nat × Slot) : Bool :=
  decide (a.2.admitStep < b.2.admitStep) || (a.2.admitStep == b.2.admitStep && decide (a.2.admitTime ≤ b.2.admitTime))

/-- The rows of a pool's step. -/
def poolStep (s : State) (p : PoolPlan) : List (Nat × Nat) :=
  if poolPaused s p.id || poolHeld s p.id then []
  else
    let mine := s.serving.slots.filter fun x => x.2.req.pool = p.id
    let dec := (mine.filter fun x => x.2.state == .decode && leftToFill x.2 == 0).map fun x => (x.1, 1)
    let pre := sortBy admitBefore (mine.filter fun x => x.2.state != .ending && leftToFill x.2 != 0)
    dec ++ placeChunks s p pre (p.stepTokens - dec.length)

/-- A row of the step list placed in its slot: the positions that it appends take their pages, and the walk of the page
lists ends the sequence where an entry is bad (R236, R246, R269). DEDUCED: log entries 63, 124. -/
def placeRow (s : State) (r : Nat × Nat) : State :=
  match slot? s r.1 with
  | none => s
  | some x =>
    let s := modSlot s r.1 fun x => { x with
      placed := r.2, committed := false, masked := x.state == .ending
      samples := decide (x.held + r.2 ≥ x.fill) && x.state != .ending }
    let s := takePages s r.1 (x.held + r.2)
    match (slot? s r.1).bind fun x => walkEnds s x (x.held + r.2) x.held r.2 with
    | some st => endSequence s r.1 st
    | none => s

/-- The rows of the step that the scheduler forms (R269). -/
def stepRows (s : State) : List (Nat × Nat) :=
  match s.plan with
  | some p => (p.pools.map fun x => poolStep s x).flatten
  | none => []

/-- A step that runs with its rows; none where there is nothing to place. -/
def runStep (s : State) (rows : List (Nat × Nat)) : State :=
  if rows.isEmpty then s
  else
    let s := rows.foldl placeRow s
    { s with serving := { s.serving with running := true } }

/-- The step formed and its list sent. DEDUCED: log entry 63. -/
def formStep (s : State) : State :=
  let rows := stepRows s
  if rows.isEmpty then s else (runStep s rows).send (.stepList s.serving.step rows)

/-- R260: a step boundary: the scheduler admits and forms the step; another module takes the step that the scheduler has
formed. -/
def stepBoundary (s : State) (n : SheafNews) : State :=
  if s.plan.isNone || s.serving.running then s
  else
    let s := boundary (takeNews s n) n.present
    if isScheduler s then formStep (admitQueue s s.serving.queue [])
    else runStep { s with serving := { s.serving with step := n.step } } n.rows

def execStepBoundary (news : SheafNews) (s : State) : Host.Outcome State Fault Refusal := powered s (stepBoundary s news)

/-- R308: every pool of the sheaf is paused. -/
def allPaused (s : State) : Bool := match s.plan with
  | some p => !p.pools.isEmpty && p.pools.all fun x => poolPaused s x.id
  | none => false

/-- R308: a boundary while every pool is paused. -/
def execPausedBoundaryTick (news : SheafNews) (s : State) : Host.Outcome State Fault Refusal :=
  powered s (if allPaused s && !s.serving.running then boundary (takeNews s news) news.present else s)

/-- R265: a request queued for ADMIT_MS ends. -/
def admitTimeout (s : State) (id : DWord) : State :=
  match queuedReq s id with
  | none => s
  | some q =>
    match planPool s q.req.pool with
    | some p => if admitRan s q ≥ p.admitMs * 10^6 then endQueued s q 5 .timeout else s
    | none => s

def execAdmitTimeout (req : DWord) (s : State) : Host.Outcome State Fault Refusal := powered s (admitTimeout s req)

/-! ### The commit (R272 to R275, R330, R331) -/

/-- The result of a slot's SAMPLE (R130). -/
structure SampleRes where
  token : Word
  logpFull : Word
  logpKept : Word
  kept : Word
  deriving DecidableEq, Repr

/-- R272: the parameter block of a slot's SAMPLE. -/
def slotParams (x : Slot) : List Byte :=
  leBytes 8 x.req.seed.toNat ++ leBytes 4 x.generated ++ leBytes 4 0 ++ leBytes 4 x.req.temp.toNat
  ++ leBytes 4 x.req.topP.toNat ++ leBytes 4 x.req.toppEn.toNat ++ leBytes 4 0

/-- R258, R272: the home's SAMPLE of the logits that it has gathered for a slot: none when no candidate is left. -/
def slotSample (x : Slot) (logits : List (Option Word)) : Option SampleRes :=
  let d := { vecD (List.replicate 64 0) with aux := x.req.topkEn.toNat, imm := if x.req.topkEn then x.req.topK else 0 }
  let cand := (logits.mapIdx fun i l => l.map fun w => (i, fp32.decode w.toNat)).filterMap id
  (sampleDraw d (slotParams x) cand).1.map fun r =>
    ⟨BitVec.ofNat 32 r.1, BitVec.ofNat 32 (r.2.1.enc fp32), BitVec.ofNat 32 (r.2.2.1.enc fp32), BitVec.ofNat 32 r.2.2.2⟩

/-- The capacity of an instance's sample store in records. -/
def storeCap (s : State) (i : Nat) : Nat := match cycle? s i with
  | some c => fieldAt c 12 4 * 16384
  | none => 0

/-- R330: a record enters the ring; the oldest is overwritten when the ring is full. -/
def storeSample (s : State) (i : Nat) (r : Sample) : State :=
  let cap := storeCap s i
  if cap = 0 then s
  else
    let x := inst s i
    let full := decide (x.store.length ≥ cap)
    let lost := full && !(x.store.headD r).read
    let s := modInst s i fun x => { x with
      store := (if full then x.store.drop 1 else x.store) ++ [{ r with seq := x.nextSeq }]
      nextSeq := x.nextSeq + 1
      overwritten := if full then Word.incSat x.overwritten 1 else x.overwritten
      unread := if lost then Word.incSat x.unread 1 else x.unread }
    if full && x.overwritten == 0 then s.recordEvent 0 0 else s

/-- Is a token the last: END 1 for a stop token, 2 at the length, 0 where the sequence goes on. -/
def endsWith (x : Slot) (token : Word) : Nat :=
  if x.req.stop0 = some token ∨ x.req.stop1 = some token then 1
  else if x.generated + 1 ≥ x.req.maxNew then 2 else 0

/-- R274, R438: the record, the entry and its message. -/
def commitToken (s : State) (i : Nat) (x : Slot) (r : SampleRes) : State :=
  let pi := poolInst s x.req.pool
  let e := endsWith x r.token
  let fl := x.mixed.toNat + 2 * x.suspect.toNat
  let s := storeSample s pi {
    seq := 0, reqId := x.req.reqId, time := s.pst.now, token := r.token, index := x.generated, logpFull := r.logpFull
    logpKept := r.logpKept, policy := x.policy, adapterVer := x.adapterVer, reward := 0
    adapterId := if x.req.adapterEn then x.req.adapterId else 0, tenant := x.req.tenant, flags := fl
    kept := min r.kept.toNat 65535, step := BitVec.ofNat 32 s.serving.step, read := false }
  let s := modSlot s i fun x => { x with
    generated := x.generated + 1, committed := true
    state := if x.state = .prefill then .decode else x.state }
  let entry := leBytes 8 x.req.reqId.toNat ++ leBytes 4 x.generated ++ leBytes 4 r.token.toNat ++ leBytes 4 r.logpFull.toNat
    ++ leBytes 4 (fl + (if e = 0 then 0 else 4))
  let s := toSession s x.req.session ⟨0x12, .ok, 0, 0, leBytes 2 1 ++ leBytes 6 0 ++ entry⟩
  let s := boundRing s x.req.session
  if e = 0 then sendSlot s i else endSlot s i e .ok

/-- R209 on a page of this module that holds a poisoned line of weights, keys or values: what holds its bytes then. The
free page that step 2 asks for is the first of the same window that is kept for demand paging. DEDUCED: log entry 129. -/
def retireHeld (s : State) (page : Nat) : State × Nat :=
  let line := ((List.range 1024).find? fun i => s.linePoison (page * 65536 + 64 * i)).getD 0
  let frame := s.tiering.frames.find? fun f => windowOf s f == windowOf s page && !pageRetired s f
  match s.dramDecode (page * 65536 + 64 * line) with
  | some (ch, b) =>
    let mapped := !(mappers s page).isEmpty
    (retirePage s ⟨ch, b / 64, 1, s.taiSecond⟩ (if mapped then frame else none) none,
      if mapped then frame.getD page else page)
  | none => (s, page)

/-- R255: a sequence that met poison, or lost keys, rebuilds them; one record says so. -/
def rebuildSlot (s : State) (i : Nat) : State :=
  match slot? s i with
  | none => s
  | some x => if x.state = .ending then s else sendSlot ((modSlot s i refillSlot).recordEvent 0 0) i

/-- R284: the step of an instance is held. -/
def holdInst (s : State) (i : Nat) (pages : List Nat) (adapters : List (Nat × Word)) : State :=
  modInst s i fun x =>
    let h := x.hold.getD ⟨s.pst.up, [], []⟩
    { x with hold := some { h with
      pages := pages.foldl (fun l p => nsInsert p l) h.pages, adapters := h.adapters ++ adapters } }

/-- R237, R255, R272 to R275: the home's SAMPLE of a slot of the running step. Poison of the sequence's own pages makes it
rebuild them; any other poison holds the step, which is issued again (R284); a bitmap line that read poisoned is
recorded. DEDUCED: log entries 64, 65. -/
def tokenCommit (s : State) (i : Nat) (r : SampleRun) : State :=
  match slot? s i with
  | none => s
  | some x =>
    if !s.serving.running || !homedHere s x || !x.samples || x.committed || x.masked || x.state == .ending
      || poolHeld s x.req.pool then s
    else
      let x := { x with emptyRow := Word.incSat x.emptyRow r.emptyRows }
      let s := r.masks.foldl (fun s _ => s.recordEvent 0 0) (modSlot s i fun _ => x)
      if r.kvPoison then rebuildSlot (r.kvPages.foldl (fun s p => (retireHeld s p).1) s) i
      else if r.poisoned then holdInst s (poolInst s x.req.pool) [] []
      else match slotSample x r.logits with
        | some t => commitToken s i x t
        | none => s

def execTokenCommit (slot : BitVec 14) (run : SampleRun) (s : State) : Host.Outcome State Fault Refusal :=
  powered s (tokenCommit s slot.toNat run)

/-! ### The end of a step (R267) -/

/-- Does a slot of the running step that is homed here still owe its token. -/
def owesToken (s : State) (x : Slot) : Bool := homedHere s x && x.samples && !x.committed && x.state != .ending

/-- A slot after its step: what was placed is held; a rebuild that is complete frees the old pages (R255). -/
def afterStep (x : Slot) : Slot := { x with
  held := x.held + x.placed, placed := 0, samples := false, committed := false, masked := false
  old := if x.held + x.placed ≥ x.fill then [] else x.old }

/-- The end of the running step: homes send the records of their slots, and ENDING slots are freed.
DEDUCED: log entry 64. -/
def stepEnd (s : State) (n : SheafNews) : State :=
  if !s.serving.running || s.serving.slots.any (fun x => owesToken s x.2)
    || s.insts.any (fun x => x.2.hold.isSome) then s
  else
    let moved := (s.serving.slots.filter fun x => x.2.placed != 0 && x.2.state != .ending).map Prod.fst
    let s := { s with serving := { s.serving with
      running := false, step := s.serving.step + 1, slots := SMap.mapVals (fun _ x => afterStep x) s.serving.slots } }
    freeEnded (n.records.foldl takeRecord (moved.foldl sendSlot s))

def execStepEnd (news : SheafNews) (s : State) : Host.Outcome State Fault Refusal := powered s (stepEnd s news)

/-- R277: a cancel notice masks the sequence's rows for the rest of the step; the home has sent its terminal record. -/
def cancelNotice (s : State) (i : Nat) : State :=
  modSlot s i fun x => if x.state = .ending then { x with masked := true }
    else { x with state := .ending, end_ := 3, endStatus := .cancelled, cancelled := true, masked := true }

def execCancelNotice (slot : BitVec 14) (s : State) : Host.Outcome State Fault Refusal := powered s (cancelNotice s slot.toNat)

/-! ### Poison in shared weights and adapters (R284 to R286) -/

/-- An adapter version changed where it stands. -/
def modAdapterVer (s : State) (i id : Nat) (ver : Word) (f : AdapterVer → AdapterVer) : State :=
  { s with serving := { s.serving with adapters := s.serving.adapters.map fun a =>
    if a.inst = i ∧ a.id = id then { a with versions := a.versions.map fun v => if v.num = ver then f v else v } else a } }

/-- R286: a version of which no clean copy remains is lost: the sequences bound to it end, and an ID whose current version
it was is absent. -/
def loseAdapter (s : State) (i id : Nat) (ver : Word) : State :=
  let drop := fun (a : Adapter) => if a.inst = i ∧ a.id = id then { a with
      versions := a.versions.filter fun v => v.num ≠ ver
      current := if a.current = some ver then none else a.current
      next := if a.next = some ver then none else a.next } else a
  let bound := fun (x : Nat × Slot) => homedHere s x.2 && x.2.req.adapterEn && poolInst s x.2.req.pool == i
    && x.2.req.adapterId == id && x.2.adapterVer == ver
  (s.serving.slots.filter bound).foldl (fun s x => endSlot s x.1 4 .adapterMissing)
    { s with serving := { s.serving with adapters := s.serving.adapters.map drop } }

/-- R284, R286: the step is held, the affected pages are retired, and the adapter versions that a clean copy can restore
wait for it; the others are lost. -/
def weightPoison (s : State) (i : Nat) (pages : List Nat) (adapters : List AdapterPoison) : State :=
  if (planInst s i).isNone then s
  else
    let (s, held) := pages.foldl (fun (st : State × List Nat) p =>
      let (s, q) := retireHeld st.1 p
      (s, st.2 ++ [q])) (s, [])
    let s := (adapters.filter fun a => !a.clean).foldl (fun s a => loseAdapter s i a.id a.version) s
    let kept := adapters.filter fun a => a.clean
    let s := kept.foldl (fun s a => modAdapterVer s i a.id a.version fun v => { v with poison := true }) s
    if pages.isEmpty && kept.isEmpty then s else holdInst s i held (kept.map fun a => (a.id, a.version))

def execWeightPoison (i : Nat) (pages : List Nat) (adapters : List AdapterPoison) (s : State) :
    Host.Outcome State Fault Refusal := powered s (weightPoison s i pages adapters)

/-- R284 step 2: the bytes of an affected page written whole, without poison. -/
def refillPage (s : State) (e : Nat × List Byte) : State :=
  let s := (List.range 1024).foldl (fun s l => s.writeLine (e.1 * 65536 + 64 * l) ((e.2.drop (64 * l)).take 64) false) s
  { s with dram := { s.dram with refills := nsErase e.1 s.dram.refills } }

/-- The held step issued again under its number; the rows of a cancelled sequence are masked (R278). -/
def issueAgain (s : State) (i : Nat) (h : WeightHold) : State :=
  let s := h.adapters.foldl (fun s a => modAdapterVer s i a.1 a.2 fun v => { v with poison := false, image := v.copy }) s
  let s := modInst s i fun x => { x with hold := none }
  let rows := (s.serving.slots.filter fun x => poolInst s x.2.req.pool == i && x.2.placed != 0).map fun x =>
    (x.1, if x.2.masked then 0 else x.2.placed)
  (s.incReg .supSrvReissue).send (.stepList s.serving.step rows)

/-- R284, R286: affected pages are refilled; once every one has been, the held step is issued again. -/
def stepReissue (s : State) (i : Nat) (refills : List (Nat × List Byte)) : State :=
  match (inst s i).hold with
  | none => s
  | some h =>
    let got := refills.filter fun e => h.pages.contains e.1
    let s := got.foldl refillPage s
    let left := h.pages.filter fun p => !got.any fun e => e.1 == p
    if left.isEmpty then issueAgain s i h else modInst s i fun x => { x with hold := some { h with pages := left } }

def execStepReissue (i : Nat) (refills : List (Nat × List Byte)) (s : State) : Host.Outcome State Fault Refusal :=
  powered s (stepReissue s i refills)

/-- R285: an instance becomes UNAVAILABLE, and its open requests end with WEIGHT_LOST. -/
def instLost (s : State) (i : Nat) : State :=
  let s := modInst (readClocks s) i fun x => { x with phase := .unavailable, nextPhase := none, hold := none }
  endRequests s (fun r => poolInst s r.pool == i) 4 .weightLost

/-- R285, R286: no clean copy within 5 s of the report: of a page, which loses the instance, or of adapter versions alone,
which are lost. -/
def repairTimeout (s : State) (i : Nat) : State :=
  match (inst s i).hold with
  | some h =>
    if s.pst.up < h.at_ + 5 * 10^9 then s
    else if h.pages.isEmpty && !h.adapters.isEmpty then
      issueAgain (h.adapters.foldl (fun s a => loseAdapter s i a.1 a.2) s) i { h with adapters := [] }
    else instLost s i
  | none => s

def execRepairTimeout (i : Nat) (s : State) : Host.Outcome State Fault Refusal := powered s (repairTimeout s i)

/-! ### Steering (R281) -/

/-- R281: element j of layer l's output, steered by an adapter image and the instance's basis of width d: the mix is one
block of 32 products in A40; the gain's product and the sum are FP32 operations; the result is in h's format. -/
def steerElem (fmt : Nat) (im : List Byte) (basis : Nat × List Byte) (d l j h : Nat) : Nat :=
  let gain := elemVal 2 (fieldAt im (64 + 192 * l + 2 * (j / fieldAt im 2 2)) 2)
  let coef := fun i => fieldAt im (192 + 192 * l + 2 * i) 2
  let vec := fun i => elemAt basis.1 (fun b => basis.2.getD b 0) ((32 * l + i) * d + j)
  let mix := (cellBlock false 2 basis.1 Cell.fresh ((List.range 32).map fun i => ((coef i, false), (vec i, false)))).1
  let g := (F.mul gain (elemVal fmt h)).1
  (convOut fmt none false (F.add g (F.round (a40Of mix.img)).1).1).1

/-- R281: a row of layer l's output of a slot's sequence before layer l + 1; a row whose ADAPTER_EN is clear stays as it
is, and so does one whose version or basis is not resident, for which the sequence has ended (R286). -/
def steerRow (s : State) (x : Slot) (fmt l : Nat) (row : List Nat) : List Nat :=
  let i := poolInst s x.req.pool
  if !x.req.adapterEn then row
  else match ((adapter? s i x.req.adapterId).bind fun a => a.versions.find? fun v => v.num = x.adapterVer), (inst s i).basis with
    | some v, some b => row.mapIdx fun j h => steerElem fmt v.image b row.length l j h
    | _, _ => row

end Sys2Proof.Machine
end

