-- ==== Sys2Proof/WellFormed.lean ====
section
/-! DEFINITION. Which commands can be sent: the sizes and shapes that the rules give the operands beyond what their types
say. The step takes any command; a sender makes well-formed ones only. -/

namespace Sys2Proof

/-- No element twice. -/
def distinct {α : Type} [BEq α] : List α → Bool
  | [] => true
  | a :: t => !t.contains a && distinct t

/-- R29: a byte address of the register region of the local physical map. -/
def inRegs (a : BitVec 44) : Bool := a.toNat / 2 ^ 40 == 0xF && a.toNat % 2 ^ 40 < 2 ^ 32

/-- R431: the body that follows a header is as long as BODY_LEN says. -/
def Msg.wf (m : Msg) : Bool := m.body.length == m.bodyLen.toNat

/-- R338: a contribution's join descriptor is a 64-byte line. -/
def RemoteJoin.wf (j : RemoteJoin) : Bool := j.desc.length == 64

/-- R261: a slot record is 128 bytes. -/
def SheafNews.wf (n : SheafNews) : Bool :=
  (n.queued.all fun b => b.length == 128) && n.records.all fun r => decide (r.1 < 16384) && r.2.length == 128

/-- R40, R112, R152: the length of a descriptor. -/
def ConsDesc.wf : ConsDesc → Bool
  | .tile l => l.length == 32
  | .vector l => l.length == 32
  | .stream l => l.length == 64

/-- The operands of a command have the sizes that the rules give them. -/
def Instr.wf : Instr → Bool
  | .misalignedRegAccess addr width _ _ => inRegs addr && [1, 2, 4, 8].contains width && (width != 4 || addr.toNat % 4 != 0)
  | .unassignedRegAccess addr _ _ => inRegs addr && addr.toNat % 4 == 0
  | .regWrite addr _ => inRegs addr && addr.toNat % 4 == 0
  | .counterLoRead addr => inRegs addr && addr.toNat % 4 == 0
  | .constellationComplete _ d _ members => d.wf && members.all fun r => r.all fun b => b.length == 32
  | .refresh _ upsets => upsets.all fun e => decide (e.1 < 20971520) && e.2.all fun x => decide (x.1 < 67)
  | .patrolScrub _ found => found.all fun x => decide (x.1 < 67)
  | .stackTempSample _ readings => readings.length == 4
  | .weightPoison _ pages _ => distinct pages
  | .stepBoundary news => news.wf
  | .pausedBoundaryTick news => news.wf
  | .stepEnd news => news.wf
  | .stepReissue _ refills => refills.all fun r => r.2.length == 65536
  | .turnStart _ rooms _ => distinct (rooms.map (·.module))
  | .shardArrive _ _ _ info _ _ => info.shardFps.length == 8
  | .instanceClose _ remote => remote.all RemoteJoin.wf && distinct (remote.map (·.member))
  | .collectiveDeadline _ remote => remote.all RemoteJoin.wf && distinct (remote.map (·.member))
  | .lateContribution _ _ j => j.wf
  | .journalRecord _ j => j.header.length == 64
  | .takeover _ homes => distinct (homes.map (·.session))
  | .hello m => m.wf
  | .auth m => m.wf
  | .bye m => m.wf
  | .generate m _ => m.wf
  | .cancel m _ => m.wf
  | .reward m _ => m.wf
  | .sampleRead m _ => m.wf
  | .adapterPut m _ => m.wf
  | .adapterDel m => m.wf
  | .planLoad m _ => m.wf
  | .planUnload m => m.wf
  | .weightSet m _ _ _ => m.wf
  | .learn m _ => m.wf
  | .secure m _ => m.wf
  | .handover m _ => m.wf
  | .tenant m => m.wf
  | .calRead m _ => m.wf
  | .calWrite m _ _ => m.wf
  | .fwBlock m _ => m.wf
  | .statusIdent m => m.wf
  | .statusPolicy m => m.wf
  | .statusDram m => m.wf
  | .statusTurn m => m.wf
  | .statusOwners m _ => m.wf
  | .statusNightwatch m => m.wf
  | .statusFallow m => m.wf
  | .statusClearPending m => m.wf
  | .statusFirmware m => m.wf
  | .flitReceive _ f => f.bytes.length == 512
  | .moduleEnAssert env => env.pcie.length == 8
  | .warmRestart env => env.pcie.length == 8
  | .almWindowWrite addr _ => inRegs addr && addr.toNat % 4 == 0
  | .pldmFirmwareData offset data len => data.length == 4096 && offset % 4096 == 0 && offset + data.length ≤ len
  | .tlyAdd _ _ _ _ | .tlySet _ _ _ _ | .tlyWait _ _ _ _ | .tlyWaitSatisfied _ _ | .tallyPollTick _
  | .tlyPoll _ _ _ _ | .remoteTallyArrive _ _ _ _ _ | .kfence _ _ | .riscvFence _ _ | .kqPush _ _ _
  | .strRearm _ _ _ _ | .strResume _ _ _ | .hartAccess _ _ _ _ _ | .hartAmo _ _ _ _ _ | .tile _
  | .partialMergeDone _ _ | .staggerWindowEnd _ | .tileDrainDone _ | .egressQueueSpace _ _
  | .mxeDiscardGroups _ | .mxeFlush _ | .mxeEnable _ _ | .cplHeadWrite _ _ | .add _ | .sub _ | .mul _ | .fma _
  | .min _ | .max _ | .abs _ | .cvt _ | .cmp _ | .div _ | .sqrt _ | .rsqrt _ | .rcp _ | .exp _ | .log _
  | .lut _ | .lutload _ | .redsum _ | .redmax _ | .redmin _ | .rmsinv _ | .smaxRow _ | .smaxRescale _
  | .smaxMerge _ | .smaxFinal _ | .sample _ | .vxeFlush _ | .vxeEnable _ _ | .copy _ _ | .ring _ _
  | .egress _ _ | .atomic _ _ | .drillRingRowWrite _ | .translationFault _ | .pageFillDone _ _ _ _
  | .tierTimeout _ _ _ | .strAbortHalted _ _ | .strFlush _ _ | .strEnable _ _ _ | .strResumeReg _ _ _
  | .xltInvalAll _ | .xltInvalCtx _ _ | .xltInvalDone _ | .digestArm _ _ | .scCfgWrite _ _ | .tlyClear _
  | .tlyValueWrite _ _ | .staggerCommit _ | .collCommit | .shadowGroupApply _
  | .ueReport _ _ | .ceHourEnd | .channelFence _ _ | .mapoutClear _ _ | .hotStepTick _ | .dramRequestFall _
  | .stackOnline _ | .slowMemberNotice _ _ _ _ | .admitTimeout _
  | .tokenCommit _ _ | .cancelNotice _ | .repairTimeout _ | .weightScrub _ _ _
  | .turnCommit _ | .turnTimeout _ | .allreduce _ | .reduceScatter _ | .allgather _ | .broadcast _ | .scatter _
  | .reduceToOwner _ | .dispatch _ | .combine _ | .barrier _ | .shardUpdate _ | .updConstellationTake
  | .journalAck _ _ | .jrnlWaitTimeout _ | .shardFlip _ | .updateRedo _ _ | .thrHoldFlips _ | .thrEnable _
  | .riskTick | .riskReport _ _ | .eclipseE0 | .eclipseResume _ | .handoverCutover _ _ | .heartbeatSend
  | .sheafHeartbeatSend | .heartbeatMiss _ | .suspicion _ _ | .linkFaultTimeout _ | .selfFence
  | .sheafHeartbeatMiss _ | .fenceNotice _ _ _ | .restoreCheck _ _ | .takeoverTimeout | .reserveJoin
  | .authTimeout _ | .sessionTimeout _ | .remoteAccessNak _ | .replayTimeout _ | .ackTick _ | .trainingStart _
  | .trainingEnd _ _ _ _ | .laneLockLoss _ _ | .ethLinkLoss _ | .nvmeTimeout _ _ | .i3cDaa _ _
  | .pldmRequest _ _ | .pldmActivateFirmware | .pldmSetTai _ | .beaconRead _ | .beaconRefresh | .serviceEntry _
  | .noDataPortTimeout | .moduleEnDeassert | .failedTimeout | .confirmCheck | .confirmDeadline | .ppsPulse
  | .ppsHoldover | .pstArm | .taiSetFallback | .pstNowRead | .repeatFlush | .almSpiRead _ _ | .inputFailure _
  | .railSwitchOff | .capTick _ _ | .dieTempSample _ _ | .thermalShutdown | .aclkStep _ | .pwrAclkCfgWrite _ _
  | .connectionRequest _ _ | .connectionLoss _ _ | .fencedTerminalExpiry _ | .ethLinkUp _ | .nvmeDriveRemoval _ _
  | .nvmeResetTimeout _ | .nvmeCopyDone | .regulatorWarning _ _ _ | .regulatorTrip | .firmwareTrap _ _ _ _
  | .securedRefresh _ _ _ | .eclipseRepeat | .mctpSetEndpointId _ _ => true

end Sys2Proof
end

