-- ==== Sys2Proof/Machine/Weights.lean ====
section
/-! DEFINITION. The headland turn, weight sets and the weight scrub (R289 to R335). -/

namespace Sys2Proof.Machine

/-! ### Shards of a tensor (R311, R337) -/

/-- The start and end of a position's part of a cut dimension. -/
def cutRange (d p : Nat) : Nat × Nat :=
  let (lo, n) := segment (ceilDiv d 128) 8 p
  (min d (128 * lo), min d (128 * (lo + n)))

/-- The elements of a tensor that position p holds, in row-major order. -/
def shardElems (t : TensorPlan) (p : Nat) (elems : List Nat) : List Nat :=
  let d := t.shape.getD t.cutDim 1
  let stride := (t.shape.drop (t.cutDim + 1)).foldl (· * ·) 1
  let (lo, hi) := cutRange d p
  let keep := elems.mapIdx fun i e => if lo ≤ i / stride % d ∧ i / stride % d < hi then some e else none
  keep.filterMap id

def shardCount (t : TensorPlan) (p : Nat) : Nat :=
  let (lo, hi) := cutRange (t.shape.getD t.cutDim 1) p
  if t.shape.getD t.cutDim 1 = 0 then 0 else tensorParams t / t.shape.getD t.cutDim 1 * (hi - lo)

/-! ### A replica against its canonical fingerprint (R303, R304) -/

/-- R304: what a mismatch of a resident tensor does: the samples since its last matching check and the running sequences
are SUSPECT, one record is written, and the steps of the instance are held until the tensor has been fetched again. -/
def suspectTensor (s : State) (i tensor : Nat) (e : VerTensor) : State :=
  let hit := fun (r : Sample) => decide (r.time ≥ e.checkedAt)
  let seqs := ((inst s i).store.filter hit).map (·.seq)
  let s := flagWhere (s.incReg .supWsMismatch) i hit 2
  let s := if seqs.isEmpty then s else s.incReg .supWsSuspect 0 [] seqs.length
  let mark := fun (x : Slot) => if poolInst s x.req.pool = i ∧ x.state ≠ .ending then { x with suspect := true } else x
  let s := { s with serving := { s.serving with slots := SMap.mapVals (fun _ x => mark x) s.serving.slots } }
  let s := s.record 0x0031 0 0 (leBytes 4 tensor ++ leBytes 8 (seqs.headD 0) ++ leBytes 8 (seqs.getLastD 0))
  holdInst s i [] []

/-- The time of a tensor's last matching check. -/
def setChecked (s : State) (i tensor : Nat) : State :=
  modInst s i fun x => { x with current := x.current.map fun v => { v with
    tensors := v.tensors.map fun e => if e.tensor = tensor then { e with checkedAt := s.pst.now } else e } }

/-- R303: the fingerprint of a resident shard against the canonical one. -/
def compareShard (s : State) (i tensor : Nat) (resident : List Byte) : State :=
  match ((inst s i).current.map (·.tensors)).bind fun l => l.find? fun e => e.tensor = tensor with
  | none => s
  | some e =>
    if some (fingerprint resident) = e.shardFps[s.dev.position]? then setChecked s i tensor
    else setChecked (suspectTensor s i tensor e) i tensor

/-! ### Conversion (R316 to R318) -/

/-- The largest magnitude of a master; none where it is not finite. -/
def amaxOf (l : List Word) : Option FVal :=
  l.foldl (fun (m : Option FVal) w => match m with
    | none => none
    | some m => match fp32.decode w.toNat with
      | .fin _ k e => some (if m.le (.fin false k e) then .fin false k e else m)
      | _ => none) (some Up.zero)

/-- The multiplier c and the scale s of a generation format. -/
def turnScale (fmt : Nat) (amax : FVal) : FVal × FVal :=
  let top := if fmt = 4 then some (Up.nat 448) else if fmt = 5 then some (Up.nat 57344) else none
  match top with
  | some t => if amax.isZero then (Up.one, Up.one) else (Up.div t amax, Up.div amax t)
  | none => (Up.one, Up.one)

/-- A master converted: rne(w × c), the product formed in A40. -/
def convertMaster (fmt : Nat) (c : FVal) (l : List Word) : List Nat :=
  l.map fun w => (convOut fmt none false (rne40 (FVal.mul (fp32.decode w.toNat) c))).1

/-- The version table's entry of a tensor from its elements. -/
def tableEntry (t : TensorPlan) (fmt : Nat) (scale : Word) (elems : List Nat) (now : Nat) : VerTensor :=
  { tensor := t.id, scale := scale, fp := fingerprint (tensorImage fmt elems)
    shardFps := (List.range 8).map fun p => fingerprint (tensorImage fmt (shardElems t p elems))
    checkedAt := now }

def trainedTensors (p : InstancePlan) : List TensorPlan := p.tensors.filter (·.trained)

/-- The owner of a tensor by the assignment (R362). -/
def ownerOf (s : State) (t : Nat) : Option Nat := (s.thresher.owners.find? fun o => o.tensor = t).map (·.owner)

/-- R319: shards delivered job-wide, counting each receiver; an owner keeps its own position's shard. -/
def turnBytes (s : State) (p : InstancePlan) : Nat :=
  ((trainedTensors p).map fun t =>
    let sz := fun q => ceilDiv (rowBytes t.genFmt (shardCount t q)) 64 * 64
    ((List.range 8).map sz).sum * p.mapping.sheaves - sz ((ownerOf s t.id).getD 0 % 8)).sum

/-- The other sheaves of an instance. -/
def otherSheaves (s : State) (p : InstancePlan) : List Nat :=
  ((List.range p.mapping.sheaves).map (p.firstSheaf + ·)).filter (· ≠ s.dev.sheaf)

/-- A module sends the shard of its own position to the same position of every other sheaf. -/
def forwardShard (s : State) (p : InstancePlan) (t : Nat) (b : List Byte) : State :=
  (otherSheaves s p).foldl (fun s sh => s.send (.shard p.id t s.dev.position sh b)) s

/-- An owned tensor converted and its shards sent: over the furrow to the other positions, and its own position's to the
other sheaves. A master with a poisoned line waits for its repair, and every conversion for the resume of an eclipse
(R328). -/
def convertOne (p : InstancePlan) (st : State × Turn) (t : TensorPlan) : State × Turn :=
  let (s, u) := st
  match ownShard s t.id with
  | none => (s, u)
  | some x =>
    match amaxOf x.half.master with
    | none => (s, u)
    | some a =>
      if x.poison || s.nwt.eclipse == .copy then (s, u)
      else
        let (c, sc) := turnScale t.genFmt a
        let elems := convertMaster t.genFmt c x.half.master
        let e := tableEntry t t.genFmt (BitVec.ofNat 32 (sc.enc fp32)) elems s.pst.now
        let img := fun q => tensorImage t.genFmt (shardElems t q elems)
        let s := (((List.range 8).filter (· ≠ s.dev.position)).foldl
          (fun s q => s.send (.shard p.id t.id q s.dev.sheaf (img q))) s)
        (forwardShard s p t.id (img s.dev.position),
          { u with table := u.table ++ [e], have_ := nsInsert t.id u.have_, lagging := u.lagging + x.lagging.toNat })

/-! ### Outcomes (R325 to R327) -/

/-- A turn that does not commit. -/
def abandonTurn (s : State) (i : Nat) (t : Turn) (st : Status) (detail : Nat) : State :=
  let old := curVer (inst s i)
  let s := modInst s i fun x => { x with turn := none, turnsAbandoned := Word.incSat x.turnsAbandoned 1 }
  let s := writeTurn s i (turnRecord i t old old st detail 4 t.table.length 0 0)
  if !t.forced then setPhase s i .generation
  else if t.retry then instLost s i
  else modInst s i fun x => { x with retry := true }

/-- Does the turn hold every shard of the new version. DEDUCED: log entry 69. -/
def turnReady (s : State) (i : Nat) (t : Turn) : Bool :=
  match planInst s i with
  | some p => (trainedTensors p).all fun x => t.have_.contains x.id
  | none => false

def sendReady (s : State) (i : Nat) : State :=
  match (inst s i).turn with
  | some t => if turnReady s i t then s.send (.ready i) else s
  | none => s

/-- R328: the conversions that waited in a turn, for a master's repair or for the resume of an eclipse. -/
def resumeTurn (s : State) (i : Nat) : State :=
  match planInst s i, (inst s i).turn with
  | some p, some t =>
    if turnReady s i t then s
    else
      let (s, t) := ((trainedTensors p).filter fun x => !t.have_.contains x.id).foldl (convertOne p) (s, t)
      sendReady (modInst s i fun x => { x with turn := some t }) i
  | _, _ => s

def resumeTurns (s : State) : State := (SMap.keys s.insts).foldl resumeTurn s

def learnSteps (s : State) (i : Nat) : Nat := match cycle? s i with
  | some c => fieldAt c 8 2
  | none => 0

def turnMs (s : State) (i : Nat) : Nat := match cycle? s i with
  | some c => fieldAt c 10 2
  | none => 0

/-- LEARN_STEPS steps of the running phase are settled on every owned shard of the instance (R310). -/
def learned (s : State) (p : InstancePlan) : Bool :=
  s.thresher.shards.all fun x => !(p.tensors.any fun t => t.id = x.tensor)
    || decide (x.settled ≥ (inst s p.id).learnFrom + learnSteps s p.id)

/-! ### The turn (R314 to R321) -/

/-- t0 of a turn, or of a second attempt; every replica is compared with its canonical fingerprint (R303).
DEDUCED: log entry 69. -/
def turnStart (s : State) (i : Nat) (rooms : List RoomReport) (resident : List (Nat × List Byte)) : State :=
  match planInst s i with
  | none => s
  | some p =>
    let x := inst s i
    if (cycle? s i).isNone || x.turn.isSome || x.commit.isSome
      || !(x.retry || (phaseOf s i == .learning && learned s p)) then s
    else
      let forced := rooms.any fun r => decide (r.freePages < r.needPages)
      let t : Turn := {
        t0 := s.pst.now, upAt := s.pst.up, stood := 0, forced := forced, retry := x.retry, table := [], have_ := []
        lagging := 0, refetch := 0, bytes := turnBytes s p
        step := BitVec.ofNat 64 (x.learnFrom + learnSteps s i - 1) }
      let s := modInst (setPhase s i .turning) i fun x => { x with retry := false }
      if (trainedTensors p).isEmpty then
        writeTurn (setPhase s i .generation) i (turnRecord i { t with bytes := 0 } (curVer x) (curVer x) .zero 0 0 0 0 0)
      else if curVer x + 1 = 0xFFFFFFFF#32 then abandonTurn s i { t with forced := false } .outOfRange 0x20
      else if s.thresher.shards.any (fun y => (p.tensors.any fun z => z.id = y.tensor) && (amaxOf y.half.master).isNone) then
        abandonTurn s i t .internal 0x21
      else
        let s := if forced then s.send (.turnForced i) else s
        let s := resident.foldl (fun s e => compareShard s i e.1 e.2) s
        let (s, t) := (trainedTensors p).foldl (convertOne p) (s, t)
        sendReady (modInst s i fun x => { x with turn := some t }) i

def execTurnStart (i : Nat) (rooms : List RoomReport) (resident : List (Nat × List Byte)) (s : State) :
    Host.Outcome State Fault Refusal := powered s (turnStart s i rooms resident)

/-- R319, R320: a shard arrives for this module's position: verified, fetched once more on a mismatch, forwarded to the
other sheaves when it came from its owner's. DESIGN CHOICE: log entry 68. -/
def shardArrive (s : State) (i tensor pos : Nat) (info : ShardInfo) (data again : List Byte) : State :=
  match planInst s i, (inst s i).turn with
  | some p, some t =>
    if pos ≠ s.dev.position ∨ t.have_.contains tensor ∨ !((trainedTensors p).any fun x => x.id = tensor) then s
    else
      let ok := fun (b : List Byte) => decide (some (fingerprint b) = info.shardFps[pos]?)
      let take := fun (s : State) (t : Turn) (b : List Byte) =>
        let e : VerTensor := ⟨tensor, info.scale, info.fp, info.shardFps, s.pst.now⟩
        let s := modInst s i fun x => { x with turn := some { t with
          table := t.table ++ [e], have_ := nsInsert tensor t.have_ } }
        let s := if (ownerOf s tensor).any (fun o => o / 8 == s.dev.sheaf) then forwardShard s p tensor b else s
        sendReady s i
      if ok data then take s t data
      else
        let s := s.incReg .supWsMismatch
        let t := { t with refetch := t.refetch + 1 }
        if ok again then take s t again
        else abandonTurn (s.incReg .supWsMismatch) i t .sigFail 0x02
  | _, _ => s

def execShardArrive (i tensor : Nat) (pos : Fin 8) (info : ShardInfo) (data again : List Byte) (s : State) :
    Host.Outcome State Fault Refusal := powered s (shardArrive s i tensor pos info data again)

/-- R321, R387: READY from every module: the version is raised, the commit leaves, and LAGGING clears. -/
def turnCommit (s : State) (i : Nat) : State :=
  match planInst s i, (inst s i).turn with
  | some p, some t =>
    if !turnReady s i t then s
    else
      let x := inst s i
      let kept := match x.current with
        | some v => v.tensors.filter fun e => !((t.table.map (·.tensor)).contains e.tensor)
        | none => []
      let v : Version := ⟨curVer x + 1, t.table ++ kept⟩
      let s := modInst s i fun x => { x with
        turn := none, commit := some v, commitForced := t.forced, commitTurn := some t, commitAt := s.pst.now
        lastUs := BitVec.ofNat 32 (min ((s.pst.up - t.upAt) / 1000) 0xFFFFFFFF) }
      let clear := fun (y : Shard) => if p.tensors.any (fun z => z.id == y.tensor) then { y with lagging := false } else y
      let s := { s with thresher := { s.thresher with shards := s.thresher.shards.map clear } }
      s.send (.turnCommit i v.num)
  | _, _ => s

def execTurnCommit (i : Nat) (s : State) : Host.Outcome State Fault Refusal := powered s (turnCommit s i)

/-- R326: TURN_MS has passed since t0 without a commit; it stands still during an eclipse (R328). -/
def turnTimeout (s : State) (i : Nat) : State :=
  match (inst s i).turn with
  | some t =>
    if s.nwt.eclipse = .none ∧ s.pst.up ≥ t.upAt + t.stood + turnMs s i * 10^6 then abandonTurn s i t .timeout 0 else s
  | none => s

def execTurnTimeout (i : Nat) (s : State) : Host.Outcome State Fault Refusal := powered s (turnTimeout s i)

/-! ### Weight sets (R291 to R295) -/

/-- A publisher key of the configuration; none when it is empty or REVOKED. -/
def publisherKey (s : State) (slot : Nat) : Option (List Byte) :=
  let e := (s.dev.config.drop (128 + 58 * slot)).take 58
  if e.length < 58 ∨ (e.take 57).all (· = 0) ∨ fieldAt e 57 1 % 2 = 1 then none else some (e.take 57)

def mTensors (m : List Byte) : Nat := fieldAt m 4 4
def mEntry (m : List Byte) (i : Nat) : List Byte := (m.drop (64 + 128 * i)).take 128
def eShape (e : List Byte) : List Nat := (List.range 4).map fun i => fieldAt e (8 + 4 * i) 4
def eCount (e : List Byte) : Nat := (((eShape e).take (fieldAt e 5 1)).foldl (· * ·) 1)
def imageLen (fmt n : Nat) : Nat := ceilDiv (rowBytes fmt n) 64 * 64

/-- Is a tensor entry whole under R292 and R289. -/
def entryOk (e : List Byte) : Bool :=
  let rank := fieldAt e 5 1
  let fin := match fp32.decode (fieldAt e 24 4) with
    | .fin _ m _ => m != 0
    | _ => false
  decide (fieldAt e 4 1 < 8) && decide (1 ≤ rank) && decide (rank ≤ 4) && zeroAt e 6 2 && zeroAt e 28 4 && zeroAt e 112 16
  && ((eShape e).mapIdx fun i n => if i < rank then n != 0 else n == 0).all id && fin
  && fieldAt e 32 8 % 64 == 0 && fieldAt e 40 8 == imageLen (fieldAt e 4 1) (eCount e)

/-- Step 1 of R294. -/
def manifestOk (m : List Byte) : Bool :=
  let n := mTensors m
  decide (n ≤ 1048576) && m.length == 192 + 128 * n && fieldAt m 0 2 == 1 && decide (fieldAt m 2 1 < 16) && zeroAt m 3 1
  && zeroAt m 32 32 && zeroAt m (64 + 128 * n + 114) 14
  && (List.range n).all (fun i => entryOk (mEntry m i))
  && fieldAt m 24 8 == ((List.range n).map fun i => fieldAt (mEntry m i) 40 8).sum

/-- The SET_VERSION table: pinned slot, place in it, SET_ID and version of every used entry (R505). -/
def setTable (s : State) : List (Nat × Nat × Nat × Nat) :=
  ((List.range 342).map fun j => match pinRead s.alm.mram (itemSet j) with
    | some b => ((List.range 3).map fun k => (j, k, fieldAt b (16 * k) 8, fieldAt b (16 * k + 8) 4)).filter fun e => e.2.2.2 ≠ 0
    | none => []).flatten

/-- The place where a SET_ID's entry goes: its own, or the first unused one. -/
def setPlace (tab : List (Nat × Nat × Nat × Nat)) (id : Nat) : Option (Nat × Nat) :=
  match tab.find? fun e => e.2.2.1 = id with
  | some e => some (e.1, e.2.1)
  | none => ((List.range 1024).map fun i => (i / 3, i % 3)).find? fun p => !(tab.any fun e => e.1 = p.1 && e.2.1 = p.2)

def setVersion (s : State) (id ver : Nat) : State :=
  match setPlace (setTable s) id with
  | none => s
  | some (j, k) =>
    let old := (pinRead s.alm.mram (itemSet j)).getD (List.replicate 64 0)
    pinWrite s (itemSet j) (patchBytes (old.take 52) (16 * k) (leBytes 8 id ++ leBytes 4 ver ++ leBytes 4 0))

/-- Do the entries agree with the instance's tensors in count, TENSOR_ID, FMT and SHAPE, each tensor named once. -/
def entriesMatch (m : List Byte) (p : InstancePlan) : Bool :=
  mTensors m == p.tensors.length && distinct ((List.range (mTensors m)).map fun i => fieldAt (mEntry m i) 0 4)
  && (List.range (mTensors m)).all fun i =>
    let e := mEntry m i
    p.tensors.any fun t => t.id == fieldAt e 0 4 && t.fmt == fieldAt e 4 1
      && decide (eShape e = (t.shape ++ List.replicate 4 0).take 4)

/-- The bytes of an instance's weights that one module of a sheaf holds. -/
def weightShare (p : InstancePlan) : Nat := (p.tensors.map fun t => imageLen t.fmt (tensorParams t)).sum / 8

/-- R294 step 7: the DRAM that the KV pool, the thresher's areas and the other instances' resident weights leave. The size
of a drive is not stated: with one, the tier holds the set. DEDUCED: log entry 130. -/
def weightRoom (s : State) (i : Nat) : Nat := match s.plan with
  | none => 0
  | some p =>
    let thr := match p.thresher with
      | some t => (t.shadowMib + t.gradMib + t.jrnlMib) * 2^20
      | none => 0
    let others := (p.instances.filter fun x => x.id ≠ i && (inst s x.id).current.isSome).map weightShare
    s.dramCap - p.kvPages * 2^p.kvPageLog - thr - others.sum

/-- R294: none when the manifest passes, else the status and detail of the first step that fails. -/
def manifestCheck (s : State) (m : List Byte) : Option (Status × Nat) :=
  let id := fieldAt m 8 8
  let tab := setTable s
  if !manifestOk m then some (.badDescriptor, 1)
  else if mTensors m = 0 then some (.zero, 0)
  else
    match publisherKey s (fieldAt m 2 1) with
    | none => some (.bindingFail, 0)
    | some k =>
      let n := 64 + 128 * mTensors m
      if !edVerify true "VL8160-WS" k (m.take n) ((m.drop n).take 114) then some (.sigFail, 1)
      else if fieldAt m 16 4 ≤ ((tab.find? fun e => e.2.2.1 = id).map fun e => e.2.2.2).getD 0 then some (.rollback, 0)
      else
        match planInst s (fieldAt m 20 4) with
        | none => some (.shapeUnsupported, 0)
        | some p =>
          if !entriesMatch m p then some (.shapeUnsupported, 0)
          else if (List.range 4).all (fun k => !((s.pciPort k).drive.contains true)) ∧ fieldAt m 24 8 / 8 > weightRoom s p.id then
            some (.noResource, 7)
          else if (setPlace tab id).isNone then some (.noResource, 8)
          else none

/-- R295: the image of an entry whose digest matches, from the first fetch or the second, and the mismatches met. -/
def fetchTensor (e data again : List Byte) : Option (List Byte) × Nat :=
  let cut := fun (d : List Byte) => (d.drop (fieldAt e 32 8)).take (fieldAt e 40 8)
  let ok := fun (b : List Byte) => decide (shake256 b 64 = (e.drop 48).take 64)
  if ok (cut data) then (some (cut data), 0) else if ok (cut again) then (some (cut again), 1) else (none, 2)

/-- R290, R303: the canonical fingerprint of a published tensor, read from its manifest digest. -/
def manifestFp (m : List Byte) (tensor : Nat) : DWord :=
  match ((List.range (mTensors m)).map (mEntry m)).find? fun e => fieldAt e 0 4 = tensor with
  | some e => BitVec.ofNat 64 (fieldAt e 48 8)
  | none => 0

/-- R294, R295: a publication checked and every tensor hashed; what it completes with where that is at once.
DESIGN CHOICE: log entry 68. -/
def publish (s : State) (m data again : List Byte) : State × Option (Status × Nat) :=
  match manifestCheck s m with
  | some r => (s, some r)
  | none =>
    let i := fieldAt m 20 4
    let got := (List.range (mTensors m)).map fun j => (mEntry m j, fetchTensor (mEntry m j) data again)
    let bad := (got.map fun g => g.2.2).sum
    let s := if bad = 0 then s else s.incReg .supWsMismatch 0 [] bad
    if got.any fun g => g.2.1.isNone then (s, some (.sigFail, 2))
    else
      let ims := got.map fun g => (fieldAt g.1 0 4, fieldAt g.1 4 1, BitVec.ofNat 32 (fieldAt g.1 24 4), g.2.1.getD [])
      let table := match planInst s i with
        | some p => p.tensors.filterMap fun t => (ims.find? fun x => x.1 = t.id).map fun x =>
            { tableEntry t x.2.1 x.2.2.1 ((List.range (tensorParams t)).map (elemAt x.2.1 fun j => x.2.2.2.getD j 0)) s.pst.now
              with fp := manifestFp m t.id }
        | none => []
      let p := Published.mk (BitVec.ofNat 64 (fieldAt m 8 8)) (BitVec.ofNat 32 (fieldAt m 16 4)) table ims
      let s := setVersion s (fieldAt m 8 8) (fieldAt m 16 4)
      (modInst s i fun x => { x with published := x.published ++ [p] }, none)

/-! ### The scrub (R303, R304, R416) -/

/-- The scrub of a resident tensor: its shard against the version table, and an owned master against its record. -/
def weightScrub (s : State) (i tensor : Nat) (resident : List Byte) : State :=
  if s.fld .supWsScrub 0 [] 15 0 = 0 then s
  else
    let s := match ownShard s tensor with
      | some x => if masterFpOf x.half.master = x.masterFp ∨ x.half.master = [] then s
          else modShard (s.incReg .supWsMismatch) tensor fun x => { x with poison := true }
      | none => s
    compareShard s i tensor resident

def execWeightScrub (i tensor : Nat) (resident : List Byte) (s : State) : Host.Outcome State Fault Refusal :=
  powered s (weightScrub s i tensor resident)

end Sys2Proof.Machine
end

