-- ==== Sys2Proof/Machine/Failure.lean ====
section
/-! DEFINITION. Nightwatch: risk, eclipses, handover, heartbeats, fencing, takeover and its check (R390 to R419). -/

namespace Sys2Proof.Machine

/-! ### The plan's survival record and the sheaf (R392, R310, R449) -/

/-- The survival record in effect; its defaults while the plan carries none. -/
def survival (s : State) : SurvivalPlan := match s.plan.bind (·.survival) with
  | some r => r
  | none => ⟨160, 224, 0x39800000#32, 30, 1⟩

/-- Does resident firmware run. -/
def firmwareRuns (s : State) : Bool := s.on && s.dev.started && !noImage s

/-- The lane group that reaches a position (R450); a value of 8 to 15 names none. -/
def groupTo (s : State) (p : Nat) : Option Nat :=
  let g := s.fld .frwRoute 0 [p] 3 0
  if g < 8 then some g else none

/-- R400: the sheaf's reserve is present, healthy and taking no other position. -/
def reserveUsable (s : State) : Bool :=
  decide (s.dev.position < 8) &&
  match groupTo s 8 with
  | some g =>
    let l := s.link g
    linkRuns l && l.hbAt.isSome && l.hbModule == 0xFFFF#16 && l.hbState == 3#8 && decide (l.hbMiss < 8)
  | none => false

/-- A join of this module is open (R397). -/
def ownJoinOpen (s : State) : Bool :=
  s.router.colls.any fun c => c.2.cur.any (fun x => x.agent.isSome) || c.2.ahead.any fun x => x.agent.isSome

/-! ### Risk (R390) -/

/-- R390: the five scores, by the Polestar counter: CE, LINK, THERMAL, REGULATOR, RETIRE. -/
def riskComps (s : State) : List Nat :=
  let within := fun (ns : Nat) (l : List Nat) => (l.filter fun t => decide (s.pst.now < t + ns)).length
  let c := (s.dram.channels.map fun x => within (3600 * 10^9) (x.2.corrected.map Prod.snd)).sum
  let temp := match maxOpt ((List.range 16).map fun i => (s.stack i).temp) with
    | some t => (max 0 (t / 16 - 80)).toNat
    | none => 0
  let pages := within (86400 * 10^9) (s.dram.retired.filterMap Prod.snd)
  let shut := (s.dram.channels.filter fun x => x.2.fenced || x.2.pending).length
  let deg := (s.dram.perStack.filter fun x => x.2.degraded).length
  [min 80 (10 * (Nat.log2 (64 + c) - 6)), min 64 (16 * within (600 * 10^9) s.nwt.linkTimes), min 96 (4 * temp),
    min 96 (32 * within (600 * 10^9) s.nwt.warnTimes), min 96 (4 * (pages + 8 * shut + 16 * deg))]

/-! ### Eclipse (R396 to R399) -/

/-- The coordinator begins an eclipse: every module quiesces, and holds its flips. -/
def beginEclipse (s : State) : State :=
  if s.nwt.eclipse ≠ .none then s
  else
    let s := holdFlips (readClocks s) true
    { s with nwt := { s.nwt with eclipse := .quiesce } }.send .eclipse

/-- The risk of a sheaf: the highest that its active modules have reported. DEDUCED: log entry 74. -/
def sheafRisk (s : State) (sh : Nat) : Nat :=
  ((s.nwt.risks.filter fun x => decide (x.1 / 8 = sh) && !s.fenced.contains x.1).map Prod.snd).foldl max 0

/-- R396: since when a sheaf has stayed below SECURE_AT − 16; from the start while none of its modules has reported. -/
def belowSince (s : State) (sh : Nat) : Option Nat :=
  if s.nwt.risks.any fun x => x.1 / 8 = sh then SMap.find s.nwt.below sh else some 0

/-- The coordinator takes a module's risk: the sheaf's risk is returned, and a rise to SECURE_AT begins an eclipse when
R396 allows one. -/
def takeRisk (s : State) (m r : Nat) : State :=
  let sh := m / 8
  let p := survival s
  let old := sheafRisk s sh
  let since := belowSince s sh
  let s := { s with nwt := { s.nwt with risks := SMap.set s.nwt.risks m r } }
  let new := sheafRisk s sh
  let low := decide (new + 16 < p.secureAt)
  let rested := match since with
    | some t => decide (s.pst.up ≥ t + 60 * 10^9)
    | none => false
  let spent := if !low && rested then nsErase sh s.nwt.spent else s.nwt.spent
  let s := { s with nwt := { s.nwt with
    spent := spent
    below := if low then SMap.set s.nwt.below sh (since.getD s.pst.up) else SMap.del s.nwt.below sh
    sheafMax := if sh = s.dev.sheaf then new else s.nwt.sheafMax } }.send (.sheafRisk sh new)
  if new ≥ p.secureAt ∧ old < p.secureAt ∧ !spent.contains sh then beginEclipse s else s

/-- R400: the module begins to hand its role to the reserve. DEDUCED: log entry 76. -/
def beginHandover (s : State) : State :=
  let other := (List.range 7).any fun g =>
    linkRuns (s.link g) && (s.link g).hbState == 5#8 && (s.link g).hbModule != 0xFFFF#16
  if s.dev.mode = .service ∧ s.ownId.isSome ∧ s.plan.isSome ∧ reserveUsable s = true ∧ other = false then
    { s with dev := { s.dev with mode := .drain }, nwt := { s.nwt with handover := true } }
  else s

/-- R391: the report that a tick owes, at most once every 100 ms. -/
def reportRisk (s : State) : State :=
  let r := s.nwt.risk
  let old := s.nwt.reported
  let p := survival s
  let crosses := fun (t : Nat) => decide (t ≤ r) != decide (t ≤ old)
  let due := match s.nwt.reportAt with
    | some t => decide (s.pst.up ≥ t + 10^8)
    | none => true
  match s.ownId with
  | none => s
  | some m =>
    if s.plan.isNone || !due || (decide (r < old + 8) && decide (old < r + 8) && !crosses p.secureAt && !crosses p.preemptAt) then s
    else
      let s := { s with nwt := { s.nwt with reported := r, reportAt := some s.pst.up } }
      if isCoordinator s then takeRisk s m r else s.send (.riskReport r)

/-- R390, R391, R400: the risk of this module, every 100 ms. -/
def riskTick (s : State) : State :=
  if !firmwareRuns s then s
  else
    let cs := riskComps s
    let s := reportRisk { s with nwt := { s.nwt with comps := cs, risk := min 255 cs.sum } }
    if s.plan.isSome && decide (s.nwt.risk ≥ (survival s).preemptAt) then beginHandover s else s

def execRiskTick (s : State) : Host.Outcome State Fault Refusal := powered s (riskTick s)

/-- R391: the coordinator receives a module's risk; any other module receives its sheaf's risk back.
DEDUCED: log entry 74. -/
def riskReport (s : State) (m r : Nat) : State :=
  match s.plan with
  | none => s
  | some p =>
    if isCoordinator s then
      (if p.modules.any (fun x => x.toNat == m) && !s.fenced.contains m then takeRisk s m r else s)
    else if m / 8 = s.dev.sheaf then { s with nwt := { s.nwt with sheafMax := r } }
    else s

def execRiskReport (module : ModuleId) (risk : Byte) (s : State) : Host.Outcome State Fault Refusal :=
  powered s (riskReport s module.toNat risk.toNat)

/-- The secured state of a shard (R393). -/
def copyOf (x : Shard) : ShardCopy := ⟨x.epoch, x.step, x.masterFp, x.half⟩

/-- A step as a secured copy or an NVMe copy notes it: STEP plus 1 modulo 2^64. -/
def stepMark (v : DWord) : Nat := (v.toNat + 1) % 2^64

/-- R399, R412: NVMe copies of owned shards begin in the background, where the module has a drive. -/
def beginNvme (s : State) (l : List Shard) : State :=
  if !anyDrive s then s
  else
    let s := { s with nwt := { s.nwt with nvmeCopy :=
      (s.nwt.nvmeCopy.filter fun e => !l.any fun x => x.tensor == e.1) ++ l.map fun x => (x.tensor, copyOf x) } }
    l.foldl (fun s x => s.send (.nvmeWrite x.tensor (stepMark x.step))) s

/-- R397 step 2: the copies that the buddy lacks leave. -/
def sendSecured (s : State) : State :=
  match buddyOf s with
  | some b =>
    if buddyFenced s then s
    else (s.thresher.shards.filter fun x => x.secured ≠ some (stepMark x.step)).foldl
      (fun s x => s.send (.secure b x.tensor x.step.toNat (securedBytes s x) (shardRecord x))) s
  | none => s

/-- R397: E0, once this module has no open join: the modules in SERVICE enter ECLIPSE and the owners copy.
DEDUCED: log entry 75. -/
def eclipseE0 (s : State) : State :=
  if s.plan.isNone || ownJoinOpen s || s.nwt.eclipse == .copy || (isCoordinator s && s.nwt.eclipse == .none)
    || !(s.dev.mode == .service || s.dev.mode == .drain) then s
  else
    let s := holdFlips (readClocks s) true
    sendSecured { s with
      dev := { s.dev with mode := if s.dev.mode = .service then .eclipse else s.dev.mode, eclipseReturn := s.dev.mode }
      nwt := { s.nwt with eclipse := .copy, e0 := s.pst.up, e0Time := s.pst.now } }

def execEclipseE0 (s : State) : Host.Outcome State Fault Refusal := powered s (eclipseE0 s)

/-- The turn clocks stand still for the time from E0 to the resume (R328). -/
def restTurns (s : State) (ns : Nat) : State :=
  { s with insts := SMap.mapVals (fun _ x => { x with turn := x.turn.map fun t => { t with stood := t.stood + ns } }) s.insts }

/-- R397 steps 3 and 4: the copies are committed and the resume arrives; `bytes` is what this module's copy moved.
DEDUCED: log entry 75. -/
def eclipseResume (s : State) (bytes : Nat) : State :=
  if s.nwt.eclipse ≠ .copy then s
  else
    let coord := isCoordinator s
    let sheaves := match s.plan with
      | some p => (p.modules.map fun (m : ModuleId) => m.toNat / 8).eraseDups
      | none => []
    let shards := s.thresher.shards
    let s := holdFlips (restTurns (readClocks s) (s.pst.up - s.nwt.e0)) false
    let s := if buddyFenced s then s else { s with thresher := { s.thresher with
      shards := shards.map fun (x : Shard) => { x with secured := some (stepMark x.step) } } }
    let s := { s with
      dev := { s.dev with mode := if s.dev.mode = DevMode.eclipse then s.dev.eclipseReturn else s.dev.mode }
      nwt := { s.nwt with eclipse := .none, lastEclipse := some s.pst.up, spent := if coord then sheaves else s.nwt.spent } }
    let s := (s.incReg .nwtEclipses).record 0x0021 0x11 0
      (leBytes 8 s.nwt.e0Time ++ leBytes 8 s.pst.now ++ leBytes 8 bytes)
    let s := if (survival s).nvmeCopy = 1 then beginNvme s shards else s
    let s := if coord then s.send .resume else s
    completeWaiting (resumeTurns s) .secure .ok 0

def execEclipseResume (bytes : Nat) (s : State) : Host.Outcome State Fault Refusal := powered s (eclipseResume s bytes)

/-- R396: 3,600 s after the last eclipse, with a sheaf's risk still at or above SECURE_AT. -/
def eclipseRepeat (s : State) : State :=
  match s.plan, s.nwt.lastEclipse with
  | some p, some t =>
    if isCoordinator s && decide (s.pst.up ≥ t + 3600 * 10^9)
      && (p.modules.any fun (m : ModuleId) => decide (sheafRisk s (m.toNat / 8) ≥ (survival s).secureAt)) then beginEclipse s else s
  | _, _ => s

def execEclipseRepeat (s : State) : Host.Outcome State Fault Refusal := powered s (eclipseRepeat s)

/-- R399: the background copies are complete and replace the older ones. -/
def nvmeCopyDone (s : State) : State :=
  let l := s.nwt.nvmeCopy
  let put := fun (x : Shard) => match l.find? fun e => e.1 = x.tensor with
    | some e => { x with nvme := some e.2 }
    | none => x
  if !anyDrive s then s
  else { s with
    nwt := { s.nwt with nvmeCopy := [] }, thresher := { s.thresher with shards := s.thresher.shards.map put } }

def execNvmeCopyDone (s : State) : Host.Outcome State Fault Refusal := powered s (nvmeCopyDone s)

/-! ### Handover (R400 to R402, R444) -/

/-- What a module that has handed over keeps: no ID, no job work, and its Almanac. -/
def leaveJob (s : State) : State :=
  { s with
    plan := none, insts := [], serving := {}, thresher := {}, router := {}, fenced := [], watches := []
    tiering := {}
    service := { s.service with sessions := [], waiting := [], tenants := [] }
    dev := { s.dev with module := none, noPosition := true }
    nwt := { s.nwt with handover := false, cutover := false, nvmeCopy := [], takeovers := [], short := [], risks := [],
                        below := [], spent := [], lastEclipse := none } }

/-- MOVED on every connection, which then closes (R444). -/
def moveConns (s : State) : State :=
  closeAll ((SMap.keys s.service.conns).foldl (fun s c => sendMsg s c ⟨0x05, .ok, 0, 0, leBytes 8 1⟩) s)

/-- The shard that a secured copy restores: the rule and the shape are the plan's. -/
def tensorDims (shape : List Nat) : Nat × Nat × Nat :=
  match shape.reverse with
  | [] => (0, 0, 0)
  | [n] => (1, n, 1)
  | c :: r :: t => (t.foldl (· * ·) 1, r, c)

def tensorPlan (s : State) (t : Nat) : Option TensorPlan :=
  s.plan.bind fun p => p.instances.findSome? fun i => i.tensors.find? fun x => x.id = t

def shardOf (s : State) (t : Nat) (c : ShardCopy) : Option Shard :=
  (tensorPlan s t).map fun p =>
    let (m, r, k) := tensorDims p.shape
    { tensor := t, rule := p.rule, mats := m, rows := r, cols := k, epoch := c.epoch, step := c.step, masterFp := c.masterFp
      halves := if c.epoch.toNat % 2 = 0 then [c.half, {}] else [{}, c.half]
      settled := (stepPos c.step + 1).toNat }

/-- The shards that this module's secured copies of an owner give become its own. -/
def installSecured (s : State) (owner : Nat) : State :=
  let l := (s.thresher.secured.filter fun x => x.owner = owner).filterMap fun x => shardOf s x.tensor x.copy
  { s with thresher := { s.thresher with
    shards := (s.thresher.shards.filter fun x => !l.any fun y => y.tensor == x.tensor) ++ l
    secured := s.thresher.secured.filter fun x => x.owner ≠ owner } }

/-- The reserve takes a position, its ID and its buddy (R22); its lane groups stay those of the reserve (R449). -/
def takePosition (s : State) (p : Nat) : State :=
  let s := { s with dev := { s.dev with
    module := some (BitVec.ofNat 12 (atPos s p)), position := p, noPosition := false } }
  let s := { s with fenced := s.fenced.filter (· ≠ atPos s p) }
  (List.range 9).foldl (fun s q => s.setFld .frwRoute 0 [q] 3 0 (if q = p ∨ q = 8 then 0xF else q)) s

/-- What a handover's end answers: every command that awaits it here, and every module that forwarded one (R400). -/
def answerHandover (s : State) (st : Status) : State :=
  let asks := s.nwt.handoverAsks
  let s := completeWaiting { s with nwt := { s.nwt with handoverAsks := [] } } (.handover (s.ownId.getD 0)) st 0
  asks.foldl (fun s a => s.send (.forwardAnswer a.1 0x34 a.2 st 0)) s

/-- What a cutover sends to the reserve (R401, R444): the job's state as it stands with the connections closed. The pages
go with it: their bytes are the operand at the reserve. DESIGN CHOICE: log entry 136. -/
def jobState (s : State) : JobMove :=
  { insts := s.insts, serving := s.serving, thresher := s.thresher, sessions := s.service.sessions, tenants := s.service.tenants }

/-- What the reserve holds of the job once it has taken the position. Its sessions have no connection: the 60 s of R428 run
from here. DESIGN CHOICE: log entry 136. -/
def takeJob (s : State) (j : JobMove) : State :=
  let s := j.pages.foldl (fun s p => s.write p.1 p.2) s
  { s with
    insts := j.insts, serving := j.serving, thresher := j.thresher
    service := { s.service with
      sessions := j.sessions.map fun x => (x.1, { x.2 with conn := none, detachedAt := s.pst.up })
      tenants := j.tenants } }

/-- The cutover at the module that hands over. -/
def cutoverFrom (s : State) (bytes : Nat) : State :=
  let m := s.ownId.getD 0
  let p := s.dev.position
  let s := (s.incReg .nwtHandovers).record 0x0022 0x11 0 (leBytes 1 p ++ leBytes 2 m ++ leBytes 8 bytes)
  let s := moveConns (answerHandover s .ok)
  leaveJob (holdFlips (s.send (.jobMove (jobState s))) false)

/-- The cutover at the reserve: the position is the draining module's (R401), and the job's state what it has sent.
DEDUCED: log entry 76. -/
def cutoverTo (s : State) (bytes : Nat) (moved : Option JobMove) : State :=
  match (List.range 8).find? fun g => linkRuns (s.link g) && (s.link g).hbState == 5#8 with
  | none => s
  | some p =>
    let s := match moved with
      | some j => takeJob (takePosition s p) j
      | none => installSecured (takePosition s p) (atPos s p)
    (s.incReg .nwtHandovers).record 0x0022 0x11 0 (leBytes 1 p ++ leBytes 2 (atPos s p) ++ leBytes 8 bytes)

/-- R401: the cutover at a step boundary at which no instance is TURNING and no eclipse is in progress. While a join of
this module is open it pauses the pools and holds the flips, and a later command cuts over. -/
def handoverCutover (s : State) (bytes : Nat) (moved : Option JobMove) : State :=
  if s.nwt.handover then
    if s.dev.mode != .drain || !reserveUsable s || s.nwt.eclipse != .none || s.serving.running
      || s.insts.any (fun x => x.2.phase == .turning || x.2.nextPhase == some .turning) then s
    else if ownJoinOpen s then
      let s := holdFlips s true
      { s with nwt := { s.nwt with cutover := true } }
    else cutoverFrom s bytes
  else if s.dev.position = 8 ∧ s.ownId = none ∧ s.dev.mode = .service then cutoverTo s bytes moved
  else
    match (List.range 7).find? fun g => linkRuns (s.link g) && (s.link g).hbState == 5#8 with
    | some g => match (s.link g).peer with
      | some q => if reserveUsable s then s.setFld .frwRoute 0 [q] 3 0 7 else s
      | none => s
    | none => s

def execHandoverCutover (bytes : Nat) (moved : Option JobMove) (s : State) : Host.Outcome State Fault Refusal :=
  powered s (handoverCutover s bytes moved)

/-- R402: the reserve fails before it has taken the position. -/
def handoverEnds (s : State) : State :=
  if !s.nwt.handover then s
  else
    let s := if s.nwt.eclipse = .none then holdFlips s false else s
    let s := { s with
      dev := { s.dev with
        mode := if s.dev.mode = .drain then .service else s.dev.mode
        eclipseReturn := if s.nwt.eclipse = .copy then .service else s.dev.eclipseReturn }
      nwt := { s.nwt with handover := false, cutover := false } }
    answerHandover s .fenced

/-! ### Heartbeats (R403, R455) -/

/-- Bytes 8 to 23 of a heartbeat's payload, after 8 zero bytes. DEDUCED: log entry 78. -/
def heartbeatPayload (s : State) : List Byte :=
  leBytes 8 0 ++ leBytes 2 (s.ownId.getD 0xFFFF) ++ leBytes 1 (if s.dev.noPosition then 0xFF else s.dev.position)
  ++ leBytes 1 s.nwt.risk ++ leBytes 1 (modeCode s.dev.mode) ++ leBytes 3 0 ++ leBytes 8 s.pst.now

/-- R403: a heartbeat on every group that is UP or DEGRADED. -/
def heartbeatSend (s : State) : State :=
  if !firmwareRuns s then s
  else (List.range 8).foldl (fun s g => sendFlit s g 2 2 (heartbeatPayload s)) s

def execHeartbeatSend (s : State) : Host.Outcome State Fault Refusal := powered s (heartbeatSend s)

/-- A position that this module suspects, or of which it holds a suspicion. -/
def suspected (s : State) (p : Nat) : Bool := s.nwt.suspects.any fun x => x.peer = p

/-- R403: the arbiter is the lowest-positioned active module that is neither fenced nor suspected. -/
def isArbiter (s : State) : Bool :=
  s.ownId.isSome && (List.range s.dev.position).all fun p => !posActive s p || suspected s p

def execSheafHeartbeatSend (s : State) : Host.Outcome State Fault Refusal :=
  powered s (if isArbiter s && s.plan.isSome && firmwareRuns s then s.send (.sheafHeartbeat s.dev.sheaf) else s)

/-! ### Fencing (R406 to R409, R412) -/

/-- The module stops and enters FAILED; its connections are lost (R406, R445). DEDUCED: log entry 81. -/
def failSelf (s : State) : State :=
  if s.dev.mode = .service ∨ s.dev.mode = .eclipse ∨ s.dev.mode = .drain then
    closeAll { s with dev := { s.dev with mode := .failed, failedAt := s.pst.up } }
  else s

/-- R145: the remote waits toward a fenced module end with a load access fault. -/
def endRemoteWaits (s : State) (m : Nat) : State :=
  let ws := s.waits.filter fun w => w.remote = some m
  let s := { s with waits := s.waits.filter fun w => w.remote ≠ some m }
  ws.foldl (fun s w => if (s.hart w.hart).hold = .tally then trap s w.hart .loadAccess w.ref else s) s

/-- R408, R409: a collective of the job without the fenced member. -/
def fenceColl (s : State) (p : CollPlan) : State :=
  let c := collOf s p.id
  if c.isOpen && !p.step && !rootFenced s p c && (List.range p.members.length).any (memberFenced s p) then
    tryClose s p false false
  else closeIfDue s p

def fenceColls (s : State) : State := match s.plan with
  | some p => p.collectives.foldl fenceColl s
  | none => s

/-- R450, R456: the group that led to a fenced position is held in FENCED, and its entry names the reserve port once the
reserve is to take the position. -/
def fenceRoute (s : State) (p : Nat) : State :=
  let usable := reserveUsable s && !(s.nwt.takeovers.any fun t => t.pos != p)
  let s := match groupTo s p with
    | some g => s.modLink g fun l => { l with
        state := if l.state = LinkState.down then .down else .fenced, replay := [], wait := [], ackDue := false }
    | none => s
  s.setFld .frwRoute 0 [p] 3 0 (if usable then 7 else 0xF)

/-- A suspicion list without a position. -/
def clearSuspicion (s : State) (p : Nat) : State :=
  { s with nwt := { s.nwt with
    suspects := s.nwt.suspects.filter fun x => x.peer ≠ p ∧ x.sender ≠ p, relays := nsErase p s.nwt.relays } }

/-- R260: the next scheduler re-forms the step in flight, under the same number. -/
def reformStep (s : State) (was : Option Nat) : State :=
  if schedulerPos s ≠ was ∧ schedulerPos s = some s.dev.position ∧ s.serving.running = true then
    s.send (.stepList s.serving.step ((s.serving.slots.filter fun x => x.2.placed ≠ 0).map fun x => (x.1, x.2.placed)))
  else s

/-- R412: the sheaf is SHORT: its pools end their open requests with FENCED. -/
def becomeShort (s : State) (p : Nat) : State :=
  let s := readClocks s
  endRequests { s with nwt := { s.nwt with short := nsInsert p s.nwt.short } } (fun _ => true) 4 .fenced

/-- What the fencing of a module of the own sheaf adds. -/
def fencePeer (s : State) (m : Nat) : State :=
  let p := m % 8
  let usable := reserveUsable s && s.nwt.takeovers.isEmpty
  let s := clearSuspicion (fenceRoute s p) p
  let t := s.nwt.takeovers
  let s := { s with nwt := { s.nwt with
    takeovers := (t.filter fun x => x.pos < p) ++ [Takeover.mk p m s.pst.up false] ++ t.filter fun x => p < x.pos } }
  let s := if usable ∨ s.dev.position = 8 then s else becomeShort s p
  if buddyOf s = some m then
    let s := { s with thresher := { s.thresher with shards := s.thresher.shards.map fun x => { x with secured := none } } }
    if usable && s.nwt.eclipse == .none then s else beginNvme s s.thresher.shards
  else s

/-- R408: a module is fenced. DEDUCED: log entry 81. -/
def fenceModule (s : State) (m arbiter cause : Nat) : State :=
  if s.ownId = some m then failSelf s
  else if s.fenced.contains m then s
  else
    let was := schedulerPos s
    let s := { s with
      fenced := nsInsert m s.fenced
      router := { s.router with slow := nsErase m s.router.slow }
      watches := s.watches.filter fun w => w.src ≠ m
      nwt := { s.nwt with risks := SMap.del s.nwt.risks m } }
    let s := (s.incReg .nwtFencings).record 0x0020 0x11 0 (leBytes 2 m ++ leBytes 2 arbiter ++ leBytes 1 cause)
    let s := endRemoteWaits s m
    let s := if m / 8 = s.dev.sheaf then fencePeer s m else s
    reformStep (fenceColls s) was

/-- R402: the reserve is fenced as any failed module is; it holds no ID and no position of the job. -/
def fenceReserve (s : State) : State :=
  let s := match groupTo s 8 with
    | some g => s.modLink g fun l => { l with
        state := if l.state = LinkState.down then .down else .fenced, replay := [], wait := [], ackDue := false }
    | none => s
  handoverEnds (clearSuspicion ((s.setFld .frwRoute 0 [8] 3 0 0xF).incReg .nwtFencings) 8)

/-- R408: a fence notice; one that names no module names the sheaf's reserve. -/
def fenceNotice (s : State) (m : Option Nat) (arbiter cause : Nat) : State :=
  match m with
  | some m => fenceModule s m arbiter cause
  | none => if s.dev.position = 8 ∧ s.ownId = none then failSelf s else fenceReserve s

def execFenceNotice (module : Option ModuleId) (arbiter : ModuleId) (cause : Byte) (s : State) :
    Host.Outcome State Fault Refusal :=
  powered s (fenceNotice s (module.map BitVec.toNat) arbiter.toNat cause.toNat)

/-- The cause that a declaration records: no rule gives its code, so it is free. DESIGN CHOICE: log entry 77. -/
def drawCause (s : State) : Nat × State := ((Config.freeByte s.freeCtr 0).toNat, { s with freeCtr := s.freeCtr + 1 })

/-- R404, R408: the arbiter declares a position's module failed. -/
def declareFailed (s : State) (p : Nat) : State :=
  if p = 8 then fenceReserve (s.send (.fenceNotice none))
  else
    let (c, s) := drawCause s
    fenceModule (s.send (.fenceNotice (some (atPos s p)))) (atPos s p) (s.ownId.getD 0) c

/-! ### Suspicion (R404 to R407) -/

/-- R404: the arbiter receives a suspicion; a module that names itself reports its own failure.
DEDUCED: log entry 79. -/
def takeSuspicion (s : State) (sender peer : Nat) : State :=
  let live := fun p => p = 8 || posActive s p
  if !isArbiter s || peer = s.dev.position || !live sender || !live peer then s
  else if sender = peer then declareFailed s peer
  else
    let s := if s.nwt.suspects.any fun x => x.sender = sender && x.peer = peer then s
      else { s with nwt := { s.nwt with suspects := s.nwt.suspects ++ [Suspect.mk sender peer s.pst.up] } }
    if (s.nwt.suspects.filter fun x => decide (x.peer = peer) && decide (x.sender < 8)).length ≥ 4 then declareFailed s peer
    else s

def execSuspicion (sender peer : Fin 9) (s : State) : Host.Outcome State Fault Refusal :=
  powered s (takeSuspicion s sender peer)

/-- R404: the eighth miss in a row: a suspicion is sent to the arbiter. -/
def sendSuspicion (s : State) (p : Nat) : State :=
  let s := (s.incReg .nwtSuspects).send (.suspicion p)
  if isArbiter s then takeSuspicion s s.dev.position p
  else { s with nwt := { s.nwt with
    suspects := (s.nwt.suspects.filter fun x => !(x.sender = s.dev.position && x.peer = p))
      ++ [Suspect.mk s.dev.position p s.pst.up] } }

/-- R455: a heartbeat of a group has not arrived within 1.1 ms of the previous one. -/
def heartbeatMiss (s : State) (g : Nat) : State :=
  let l := s.link g
  let base := l.hbAt.getD l.trainedAt
  if l.state = .down ∨ l.state = .fenced ∨ s.pst.up < base + 1100000 then s
  else
    let s := (s.incReg .frwGrpHbmiss 0 [g]).modLink g fun l => { l with
      hbAt := some (base + 1000000), hbMiss := l.hbMiss + 1, hbFirstMiss := some (l.hbFirstMiss.getD s.pst.up) }
    match l.peer with
    | some p => if l.hbMiss + 1 = 8 ∧ s.ownId.isSome then sendSuspicion s p else s
    | none => s

def execHeartbeatMiss (g : PortIx) (s : State) : Host.Outcome State Fault Refusal := powered s (heartbeatMiss s g)

/-- R405: a suspicion that fewer than 4 modules share for 20 ms: a link fault, whose traffic is relayed. -/
def linkFault (s : State) (p : Nat) : State :=
  let l := s.nwt.suspects.filter fun x => x.peer = p
  if l.isEmpty || decide (l.length ≥ 4) || !(l.all fun x => decide (s.pst.up ≥ x.at_ + 20 * 10^6)) then s
  else { s with nwt := { s.nwt with
    suspects := s.nwt.suspects.filter fun x => x.peer ≠ p
    relays := if l.any fun x => x.sender = s.dev.position then nsInsert p s.nwt.relays else s.nwt.relays } }

def execLinkFaultTimeout (peer : Fin 9) (s : State) : Host.Outcome State Fault Refusal := powered s (linkFault s peer)

/-- R406: the heartbeats of 4 or more active peers have been missing for 8 ms. -/
def selfFence (s : State) : State :=
  let lost := (List.range 8).filter fun g =>
    decide ((s.link g).hbMiss ≥ 8) && (s.link g).peer.any fun p => decide (p ≠ s.dev.position) && posActive s p
  if lost.length ≥ 4 then failSelf s else s

def execSelfFence (s : State) : Host.Outcome State Fault Refusal := powered s (selfFence s)

/-- R407: the coordinator has missed 8 sheaf heartbeats in a row: each module of the sheaf is fenced.
DEDUCED: log entry 79. -/
def sheafMiss (s : State) (sh : Nat) : State :=
  match s.plan with
  | none => s
  | some p =>
    if !isCoordinator s || sh = s.dev.sheaf then s
    else
      let (c, s) := drawCause s
      ((p.modules.map BitVec.toNat).filter fun m => decide (m / 8 = sh) && !s.fenced.contains m).foldl
        (fun s m => fenceModule (s.send (.fenceNotice (some m))) m (s.ownId.getD 0) c) s

def execSheafHeartbeatMiss (sheaf : Fin 512) (s : State) : Host.Outcome State Fault Refusal := powered s (sheafMiss s sheaf)

/-! ### Takeover (R410 to R412) -/

/-- R411: learning stops: every learn command and open learning step ends with WEIGHT_LOST; serving goes on. -/
def stopLearning (s : State) : State :=
  let ids := SMap.keys s.insts
  let s := { s with nwt := { s.nwt with learnStopped := true } }
  let s := ids.foldl (fun s i => completeWaiting s (.learn i) .weightLost 0) s
  let s := ids.foldl (fun s i => if phaseOf s i = .learning then setPhase s i .generation else s) s
  match s.plan with
  | none => s
  | some p => (p.collectives.filter (·.step)).foldl (fun s c =>
      let x := collOf s c.id
      if x.isOpen then afterClose (endAll s x.cur .weightLost 0 .none) c .weightLost (Pattern.mk x.inst [] []) else s) s

/-- One journal record replayed on a restored shard: only on a master whose fingerprint is the record's (R385); a master
that differs keeps the record's fingerprint, for the check of R413 to find. -/
def replayOne (s : State) (x : Shard) (r : JrnlRec) : Shard :=
  let fp := BitVec.ofNat 64 (fieldAt r.header 40 8)
  if stepPos x.step ≥ r.step then x
  else if masterFpOf x.half.master ≠ fp then { x with masterFp := fp }
  else
    let n := x.mats * x.rows * x.cols
    let fmt := fieldAt r.header 4 1
    let g := (List.range n).map fun i => (F.round (elemVal fmt (elemAt fmt (fun j => r.image.getD j 0) i))).1
    let u := shardRule s x
    let eta := Up.rate (match s.plan with
      | some p => p.schedules.getD u.sched []
      | none => []) r.step
    let h := newHalf u eta r.step s.freeCtr x x.half g
    { x with
      halves := x.halves.set ((x.epoch.toNat + 1) % 2) h, epoch := x.epoch + 1, step := BitVec.ofNat 64 r.step
      masterFp := masterFpOf h.master, settled := r.step + 1 }

/-- The records of a shard that still apply, in step order: each the step after the one before. -/
def replay (s : State) (x : Shard) (l : List JrnlRec) : Shard :=
  let mine := sortBy (fun (a b : JrnlRec) => decide (a.step ≤ b.step)) (l.filter fun r => r.tensor = x.tensor)
  mine.foldl (fun x r =>
    if stepPos x.step + 1 = r.step ∨ x.step = 0xFFFFFFFFFFFFFFFF#64 then replayOne s x r
    else if stepPos x.step ≥ r.step then x
    else { x with lagging := true }) x

/-- R410 steps 2 to 4, R411: the shards of a failed owner from this module's secured copies and journal. A trained tensor
of which no copy is held stops the job's learning. -/
def restoreFrom (s : State) (owner : Nat) : State :=
  let l := (s.thresher.secured.filter fun x => x.owner = owner).filterMap fun x => shardOf s x.tensor x.copy
  let l := l.map fun x => replay s x (s.thresher.journal.filter fun r => r.owner = owner)
  let want := (s.thresher.owners.filter fun o => o.owner = owner).map (·.tensor)
  let s := { s with
    freeCtr := s.freeCtr + 1
    thresher := { s.thresher with
      shards := (s.thresher.shards.filter fun x => !l.any fun y => y.tensor == x.tensor) ++ l
      secured := s.thresher.secured.filter fun x => x.owner ≠ owner
      journal := s.thresher.journal.filter fun r => r.owner ≠ owner } }
  if want.all fun t => s.thresher.shards.any fun x => x.tensor == t then s else stopLearning s

/-- R412: the buddy owns the failed module's shards. -/
def moveOwner (s : State) (old new : Nat) : State :=
  { s with thresher := { s.thresher with owners := s.thresher.owners.map fun o =>
      if o.owner = old then { o with owner := new } else o } }

/-- The assignment of R362, for every trained instance. -/
def planOwners (p : Plan) : List OwnerEnt :=
  ((p.instances.filter fun i => i.cycle.isSome || i.tensors.any (·.trained)).map assignOwners).flatten

/-- When the reserve takes a position whose shards the buddy owns, they go back to it: the buddy keeps them as secured
copies. -/
def giveBack (s : State) (m : Nat) : State :=
  match s.plan with
  | none => s
  | some p =>
    let ts := ((planOwners p).filter fun o => o.owner = m).map (·.tensor)
    let mine := s.thresher.shards.filter fun x => ts.contains x.tensor
    { s with thresher := { s.thresher with
      owners := planOwners p
      shards := s.thresher.shards.filter fun x => !ts.contains x.tensor
      secured := s.thresher.secured ++ mine.map fun x => Secured.mk m x.tensor (copyOf x) } }

/-- R445: the FENCED terminals of a fenced home, held for its sessions. -/
def holdFenced (s : State) (homes : List FencedHome) : State :=
  let one := fun (h : FencedHome) => (h.session, ({
    binding := .tenant h.tenant, conn := none, detachedAt := s.pst.up
    fenced := h.requests.map fun r => ⟨0x13, .fenced, 0, r, terminalBody 4 0xFFFFFFFF 0 0 0 0 0⟩ } : SvcSession))
  { s with service := { s.service with
    sessions := (s.service.sessions.filter fun x => !homes.any fun h => h.session == x.1) ++ homes.map one } }

/-- R385, R409: what a finished takeover sets going again: unacknowledged records toward a new buddy, and the deadlines of
instances that were held. -/
def afterTakeover (s : State) (m : Nat) : State :=
  let s := if buddyOf s = some m then
      s.thresher.shards.foldl (fun s x => (x.sent.filter fun e => !e.acked).foldl (fun s e =>
        match x.grad e.step with
        | some g => let image := tensorImage g.fmt g.elems; s.send (.journal m (journalHeader x e.step g image) image)
        | none => s) s) s
    else s
  match s.plan with
  | none => s
  | some p => p.collectives.foldl (fun s c =>
      let x := collOf s c.id
      let held := match x.cur.head? with
        | some h => ((joinD h.desc).opcode == 5 || (joinD h.desc).opcode == 6) && rootModule c (joinD h.desc) == some m
        | none => false
      if x.isOpen && held then setColl s c.id { x with openAt := s.pst.up } else s) s

/-- A takeover is complete. -/
def endTakeover (s : State) (t : Takeover) : State :=
  let s := (s.incReg .nwtTakeovers).send (.takenOver t.module)
  afterTakeover { s with nwt := { s.nwt with
    takeovers := s.nwt.takeovers.filter fun x => x.pos ≠ t.pos, takenAt := s.pst.up } } t.module

/-- R256: did a sequence hold keys on the module of a position: an unsplit one on every module, a split one on its
members. -/
def heldKeysAt (s : State) (pos : Nat) (x : Slot) : Bool :=
  x.state != .ending && x.held + x.placed != 0 && (match planPool s x.req.pool with
    | some p => x.split == 1 || (memberIndex p pos).isSome
    | none => false)

/-- R255, R256: after the takeover of a position, every sequence that held keys on its module rebuilds its whole cache and
re-runs its step in flight. DEDUCED: log entry 65. -/
def rebuildAll (s : State) (pos : Nat) : State :=
  (s.serving.slots.filter fun x => heldKeysAt s pos x.2).foldl (fun s x => rebuildSlot s x.1) s

/-- R410: the position is taken: by this module as the reserve, by this module as the buddy when the sheaf has no usable
reserve, or, at every other module, by the module that reports its takeover. DEDUCED: log entry 80. -/
def takeover (s : State) (p : Nat) (homes : List FencedHome) : State :=
  match s.nwt.takeovers.find? fun t => t.pos = p && !t.begun with
  | none => s
  | some t =>
    let begin_ := fun (s : State) => { s with nwt := { s.nwt with
      takeovers := s.nwt.takeovers.map fun x => if x.pos = p then { x with begun := true } else x } }
    if s.dev.position = 8 ∧ s.ownId = none then
      let s := { s with thresher := { s.thresher with secured := s.thresher.secured.filter fun x => x.owner ≠ t.module } }
      holdFenced (begin_ (takePosition s p)) homes
    else if reserveUsable s then
      let s := { s with fenced := s.fenced.filter (· ≠ t.module) }
      let s := (giveBack s t.module).setFld .frwRoute 0 [p] 3 0 7
      afterTakeover (rebuildAll { s with nwt := { s.nwt with
        takeovers := s.nwt.takeovers.filter fun x => x.pos ≠ p, short := nsErase p s.nwt.short } } p) t.module
    else if s.dev.position < 8 ∧ p = (s.dev.position ^^^ 4) then
      let s := restoreFrom (begin_ s) t.module
      let s := rebuildAll (moveOwner s t.module (s.ownId.getD 0)) p
      beginNvme s s.thresher.shards
    else
      let s := rebuildAll (moveOwner s t.module (atPos s (p ^^^ 4))) p
      afterTakeover { s with nwt := { s.nwt with takeovers := s.nwt.takeovers.filter fun x => x.pos ≠ p } } t.module

def execTakeover (pos : Fin 8) (homes : List FencedHome) (s : State) : Host.Outcome State Fault Refusal :=
  powered s (takeover s pos homes)

/-- R415: the half that the buddy returns for a poisoned one: the repaired half must match MASTER_FP, and what waited for
it goes on. A shard that the buddy cannot bring to its step is restored to the step of the copy, LAGGING (R411).
DEDUCED: log entry 133. -/
def repairShard (s : State) (x : Shard) (c : ShardCopy) : State :=
  if c.step = x.step ∧ masterFpOf c.half.master = x.masterFp then
    resumeTurns (updRun (modShard s x.tensor fun y => { y with
      poison := false, halves := y.halves.set (y.epoch.toNat % 2) c.half }) x.tensor)
  else if stepPos c.step < stepPos x.step ∧ covered s x = false then
    match shardOf s x.tensor c with
    | none => s
    | some r =>
      let s := modShard s x.tensor fun y => { r with
        lagging := true, settled := max r.settled y.settled, slots := y.slots, nvme := y.nvme, secured := some (stepMark c.step) }
      resumeTurns (s.record 0x0024 9 0 (leBytes 4 x.tensor ++ leBytes 8 x.step.toNat))
  else s

/-- R394, R410, R415: a shard's secured state arrives. At its owner it says that the buddy's copy has been rewritten, or, in a
takeover, it is the state to restore; a poisoned half is repaired from it; elsewhere it is kept as the secured copy of the module's buddy, or by a reserve as
a position's preparation. A step that a later copy has overtaken changes nothing. DEDUCED: log entry 80. -/
def securedRefresh (s : State) (owner tensor : Nat) (c : ShardCopy) : State :=
  if s.fenced.contains owner then s
  else if s.ownId = some owner then
    match ownShard s tensor with
    | some x =>
      if x.poison then repairShard s x c
      else if stepPos c.step ≤ stepPos x.step ∧ !(buddyFenced s) then
        modShard s tensor fun x => { x with secured := some (stepMark c.step) }
      else s
    | none =>
      if s.nwt.takeovers.any (·.begun) && s.thresher.owners.any (fun o => o.tensor == tensor && o.owner == owner) then
        match shardOf s tensor c with
        | some x => { s with thresher := { s.thresher with shards := s.thresher.shards ++ [x] } }
        | none => s
      else s
  else if buddyOf s = some owner ∨ (s.dev.position = 8 ∧ owner / 8 = s.dev.sheaf) then
    if s.thresher.secured.any fun x => x.owner == owner && x.tensor == tensor && decide (stepPos x.copy.step > stepPos c.step) then s
    else { s with thresher := { s.thresher with
      secured := (s.thresher.secured.filter fun x => !(x.owner == owner && x.tensor == tensor))
        ++ [Secured.mk owner tensor c] } }
  else s

def execSecuredRefresh (owner : ModuleId) (tensor : Nat) (copy : ShardCopy) (s : State) :
    Host.Outcome State Fault Refusal := powered s (securedRefresh s owner.toNat tensor copy)

/-- A journal record arrives: at the module that is taking a position it is replayed on the restored shard (R410 step 4),
elsewhere it is kept for the module's buddy (R384). -/
def journalArrive (s : State) (owner : Nat) (j : JournalMsg) : State :=
  if s.ownId = some owner ∧ s.nwt.takeovers.any (·.begun) = true then
    let r : JrnlRec := ⟨owner, fieldAt j.header 0 4, fieldAt j.header 8 8, j.header, j.image⟩
    if headerGood j.header then
      modShard { s with freeCtr := s.freeCtr + 1 } r.tensor fun x => replay s x [r]
    else s
  else journalRecord s owner j

def execJournalRecord (owner : ModuleId) (j : JournalMsg) (s : State) : Host.Outcome State Fault Refusal :=
  powered s (journalArrive s owner.toNat j)

/-! ### The check (R413, R414) -/

/-- Every owned shard from its NVMe copy; a shard without one stops the job's learning. -/
def restoreNvme (s : State) : State :=
  let back := fun (x : Shard) => match x.nvme with
    | some c => { x with
        halves := if c.epoch.toNat % 2 = 0 then [c.half, {}] else [{}, c.half]
        epoch := c.epoch, step := c.step, masterFp := c.masterFp, grads := [none, none], sent := [], upd := none
        lagging := false, redo := false, poison := false, settled := (stepPos c.step + 1).toNat }
    | none => x
  let lost := s.thresher.shards.any fun x => x.nvme.isNone
  let s := { s with thresher := { s.thresher with shards := s.thresher.shards.map back } }
  if lost then stopLearning s else s

/-- The step at which the restored shards stand. -/
def checkStep (s : State) : Nat := (s.thresher.shards.map fun x => (stepPos x.step).toNat).foldl max 0

/-- The outcome of a check: NWT_CHECK and the Almanac. Status codes of a failed check, and the codes of the check kinds,
are not stated: they are free. DESIGN CHOICE: log entry 77. -/
def noteCheck (s : State) (pass : Bool) : State :=
  let st := if pass then 0 else (Config.freeByte s.freeCtr 0).toNat
  let kind := (Config.freeByte s.freeCtr 1).toNat
  let s := { s with freeCtr := s.freeCtr + 1 }
  let s := s.orReg .nwtCheck 0 [] (if pass then 0x100#32 else 0x200#32)
  let s := s.setFld .nwtCheck 0 [] 7 0 st
  s.record 0x0023 0x11 0 (leBytes 1 st ++ leBytes 8 (checkStep s) ++ leBytes 1 kind)

def checkFails (s : State) (t : Takeover) : State := restoreNvme (endTakeover (noteCheck s false) t)

/-- A finite FP32 value as m · 2^(e + 200), which is a whole number for every FP32 encoding. -/
def scaled (w : Word) : Option Int := match fp32.decode w.toNat with
  | .fin s m e => some ((if s then -1 else 1) * (m * 2^(e + 200).toNat))
  | _ => none

/-- |b − a| ≤ tol · |a|, exactly. -/
def lossNear (tol a b : Word) : Bool := match scaled tol, scaled a, scaled b with
  | some t, some x, some y => decide ((y - x).natAbs * 2^200 ≤ t.natAbs * x.natAbs)
  | _, _, _ => false

/-- Does the restored state pass: the loss, where L_(T+1) has been recorded, else the fingerprints. -/
def checkPasses (s : State) (ordered : Bool) : Option (Word × Word) → Bool
  | some (l, l') => if ordered then decide (l = l') else lossNear (survival s).checkTol l l'
  | none => s.thresher.shards.all fun x => decide (masterFpOf x.half.master = x.masterFp) || x.half.master.isEmpty

/-- R413: the check of a takeover's restored state. -/
def restoreCheck (s : State) (ordered : Bool) (loss : Option (Word × Word)) : State :=
  match s.nwt.takeovers.find? fun t => t.begun with
  | none => s
  | some t => if checkPasses s ordered loss then endTakeover (noteCheck s true) t else checkFails s t

def execRestoreCheck (ordered : Bool) (loss : Option (Word × Word)) (s : State) : Host.Outcome State Fault Refusal :=
  powered s (restoreCheck s ordered loss)

/-- R414: a takeover has not completed within TAKEOVER_S of its fencing. -/
def takeoverTimeout (s : State) : State :=
  match s.nwt.takeovers.find? fun t => decide (s.pst.up ≥ t.at_ + (survival s).takeoverS * 10^9) with
  | some t => checkFails s t
  | none => s

def execTakeoverTimeout (s : State) : Host.Outcome State Fault Refusal := powered s (takeoverTimeout s)

/-- R412: a module that holds no ID and is wired to every active position becomes the reserve; at an active module of a
SHORT sheaf a usable reserve begins to take the missing position. -/
def reserveJoin (s : State) : State :=
  if s.ownId = none then
    if s.dev.mode = .service ∧ ((List.range 8).all fun g => !posActive s g || linkRuns (s.link g)) = true then
      let s := { s with dev := { s.dev with position := 8, noPosition := false } }
      (List.range 9).foldl (fun s q => s.setFld .frwRoute 0 [q] 3 0 (routeTo 8 q)) s
    else s
  else
    match s.nwt.short with
    | p :: _ =>
      if reserveUsable s && !(s.nwt.takeovers.any fun t => t.pos = p) then
        { s with nwt := { s.nwt with takeovers := s.nwt.takeovers ++ [Takeover.mk p (atPos s p) s.pst.up false] } }
      else s
    | [] => s

def execReserveJoin (s : State) : Host.Outcome State Fault Refusal := powered s (reserveJoin s)

end Sys2Proof.Machine
end

