-- ==== Sys2Proof/Machine/Readout.lean ====
section
/-! DEFINITION. What a read of each register returns (R3 to R8, R25, R62 and the register tables), and the beacon's mirror
(R465 to R467). -/

namespace Sys2Proof.Machine

/-- A Bool as the bit of a field. -/
def flag (b : Bool) (lo : Nat) : Nat := if b then 2^lo else 0

/-- The bits of a predicate on indices. -/
def mask (n : Nat) (f : Nat → Bool) : Nat := ((List.range n).map fun i => flag (f i) i).sum

/-- A number as a 16-bit two's complement field. -/
def field16 (v : Int) : Nat := ofInt 16 v

/-! ### The engines of a core -/

def readMxeStatus (s : State) (k : Nat) : Nat :=
  let m := s.mxe k
  let mode := match m.run, m.drains with
    | some r, _ => r.mode
    | none, .drain d :: _ => d.mode
    | _, _ => 0
  min 8 m.queue.length * 2^16 + flag (s.cplWaits (.mxe k)) 14 + flag (m.run.any (·.starved)) 13
  + flag (m.run.any fun r => r.staggerWait || r.overlap) 12 + flag (m.run.isSome || !m.drains.isEmpty) 11 + mode % 8 * 2^8
  + mask 4 (fun b => (heldBanks m).contains b || (drainBanks m).contains b) * 2^4
  + mask 4 (fun g => (m.groups.getD g {}).isOpen)

def readMxeAcc (s : State) (k : Nat) : Nat :=
  let g := fun i => (s.mxe k).groups.getD i {}
  mask 4 (fun i => (g i).splitFull) * 2^12 + mask 4 (fun i => (g i).nan) * 2^8 + mask 4 (fun i => (g i).iwrap) * 2^4
  + mask 4 fun i => (g i).longSum

/-- The vector engine performs an instruction whole: none is running between commands. DEDUCED: log entry 38. -/
def readVxeStatus (s : State) (k : Nat) : Nat :=
  let v := s.vxe k
  mask 8 (fun t => (v.tables.getD t none).isSome) * 2^24 + min 8 v.queue.length * 2^20 + flag (s.cplWaits (.vxe k)) 13

def readStrStatus (s : State) (k u : Nat) : Nat :=
  let x := s.str k u
  let act := fun i => x.active.getD i none
  mask 4 (fun i => (x.pers.getD i none).isSome) * 2^24 + min 16 x.queue.length * 2^16 + flag (s.cplWaits (.str k u)) 12
  + mask 4 (fun i => (act i).any fun r => r.halted.isNone) * 2^8 + mask 4 fun i => (act i).any fun r => r.halted.isSome

/-! ### DRAM (R227) -/

def readDrmStatus (s : State) (c : Nat) : Nat :=
  let x := s.stack c
  let refresh := if x.offline then 2 else if x.level.num ≥ 1 then 1 else 0
  mask 16 (fun i => s.dram.live.contains (16 * c + i)) * 2^16 + flag x.offline 11 + flag x.degraded 10
  + x.level.num * 2^8 + refresh * 2^6

/-- The start and size of a stack's LOCAL window, in units of 64 KiB (R202). -/
def localWindow (s : State) (c : Nat) : Nat × Nat :=
  match (State.localWindows s.dram.live s.dram.shareMib 16 (s.dram.live.length * s.dram.shareMib * 2^20)).find? fun w => w.1 = c with
  | some w => (w.2.1 / 65536, w.2.2.length * (1280 - s.dram.shareMib) * 16)
  | none => (0, 0)

/-! ### Serving, turns and sample stores (R288, R334, R335) -/

def selInst (s : State) : Nat := s.fld .supTurnSel 0 [] 15 0

def phaseCode : Phase → Nat
  | .generation => 0 | .learning => 1 | .turning => 2 | .unavailable => 3

def drainVer (s : State) (i : Nat) : Word := ((inst s i).draining.map (·.num)).getD 0
def drainRefs (s : State) (i : Nat) : Nat := match (inst s i).draining with
  | some d => slotsBound s i d.num
  | none => 0

/-! ### Thresher and Nightwatch (R389, R420) -/

/-- The last step for which every owned shard has flipped or become LAGGING. DEDUCED: log entry 73. -/
def settledStep (s : State) : Nat :=
  match s.thresher.shards.map (·.settled) with
  | [] => 0
  | a :: t => t.foldl min a - 1

def uncovered (s : State) : Nat := (s.thresher.shards.filter fun x => !covered s x).length

def securedLag (s : State) : Nat :=
  (s.thresher.shards.map fun x => (stepPos x.step + 1 - (x.secured.getD 0 : Nat)).toNat).foldl max 0

/-- The service level (R418). DEDUCED: log entry 73. -/
def serviceLevel (s : State) : Nat := match s.dev.mode with
  | .off | .boot => 0
  | .safe => 1
  | _ => 2

def readNwtState (s : State) : Nat :=
  flag s.nwt.handover 3 + flag (s.nwt.eclipse != .none) 2 + flag (reserveUsable s) 1
  + flag (s.plan.isSome && uncovered s == 0) 0

def readThrStatus (s : State) : Nat :=
  let act := (s.thresher.shards.filter fun x => x.upd.isSome).length
  let waits := s.thresher.shards.any fun x => match x.upd with
    | some u => u.next.isSome && flipWaits s x u
    | none => false
  min act 0xFFFF * 2^8 + flag s.thresher.held 2 + flag waits 1 + flag (act != 0) 0

/-! ### Ports and management (R468 to R470) -/

def linkCode : LinkState → Nat
  | .down => 0 | .training => 1 | .up => 2 | .degraded => 3 | .fenced => 4

def readGrp (s : State) (g : Nat) : Nat :=
  let l := s.link g
  l.peer.getD 0xF % 16 * 2^16 + l.lanes.toNat * 2^8 + l.gen % 4 * 2^4 + linkCode l.state

/-- DEDUCED: log entry 96. -/
def readPci (s : State) (p : Nat) : Nat :=
  let x := s.pciPort p
  x.speed.getD 1 0 % 16 * 2^20 + x.width.getD 1 0 % 16 * 2^16 + flag x.split 12 + x.width.getD 0 0 % 16 * 2^8
  + x.speed.getD 0 0 % 16 * 2^4 + flag (x.lowGen.getD 1 false) 3 + flag (x.lowGen.getD 0 false) 2
  + flag (x.drive.getD 1 false) 1 + flag (x.drive.getD 0 false) 0

/-! ### Start-up, time, Almanac and power (R494 to R496, R503, R514, R529) -/

def readFwState (s : State) : Nat :=
  let i := s.dev.image
  i.svnFallback % 256 * 2^16 + i.svnActive % 256 * 2^8 + flag s.dev.session.isSome 7 + i.tries % 4 * 2^5
  + flag i.confirmed 4 + flag i.pending 3 + i.phase % 8

def pstCode : PstState → Nat
  | .free => 0 | .locked => 1 | .stepPending => 2 | .holdover => 3

def readPwrStatus (s : State) : Nat :=
  flag ((List.range 16).any fun c => (s.aclkOf c).cap != 0) 7 + flag ((List.range 16).any fun c => (s.aclkOf c).logic != 0) 6
  + flag s.power.phaseFault 5 + flag s.power.ocWarn 4 + flag s.power.vinWarn 3 + flag s.power.inputFail 2
  + flag s.power.railsGood 0

/-- R527, pin 5 of J4: ALERT_N is high only while bits [7:2] of PWR_STATUS are 0. -/
def alertPin (s : State) : Bool := readPwrStatus s / 4 == 0

/-- R517, R518: pin 4 of J4: PWR_GOOD is asserted with the die rails good and falls with the report of input failure. -/
def goodPin (s : State) : Bool := s.power.railsGood && !s.power.inputFail

/-! ### A read -/

/-- A register whose value another part of the state holds; none where the register itself holds it.
DEDUCED: log entry 17. -/
def derived (s : State) (id : RegId) (i : Nat) (ix : List Nat) : Option Nat :=
  let u := ix.headD 0
  let sel := inst s (selInst s)
  match id with
  | .supSerial0 => some (s.dev.serial.toNat % 2^32)
  | .supSerial1 => some (s.dev.serial.toNat / 2^32 % 2^32)
  | .supSerial2 => some (s.dev.serial.toNat / 2^64 % 2^32)
  | .supSerial3 => some (s.dev.serial.toNat / 2^96)
  | .mxeStatus => some (readMxeStatus s i)
  | .mxeCplHead => some (s.mxe i).head.toNat
  | .mxeCplTail => some (s.mxe i).tail.toNat
  | .mxeSeq => some (s.mxe i).seq.toNat
  | .mxeAccStatus => some (readMxeAcc s i)
  | .vxeStatus => some (readVxeStatus s i)
  | .vxeCplHead => some (s.vxe i).head.toNat
  | .vxeCplTail => some (s.vxe i).tail.toNat
  | .vxeSeq => some (s.vxe i).seq.toNat
  | .strStatus => some (readStrStatus s i u)
  | .strCplHead => some (s.str i u).head.toNat
  | .strCplTail => some (s.str i u).tail.toNat
  | .strRingFill => some (ringFill (s.str i u))
  | .strSeq => some (s.str i u).seq.toNat
  | .xltStatus => some (flag (s.cluster i).invalBusy 0)
  | .drlStatus => some (min 8 (drillRuns s i).length)
  | .drlDigRes => some (fieldAt (SMap.get {} (s.cluster i).digests u).result (4 * ix.getD 1 0) 4)
  | .drlDigStatus =>
    let g := SMap.get {} (s.cluster i).digests u
    some (flag g.poisoned 3 + g.status % 8)
  | .drlDigBytesLo => some ((SMap.get {} (s.cluster i).digests u).absorbed % 2^32)
  | .drlDigBytesHi => some ((SMap.get {} (s.cluster i).digests u).absorbed / 2^32 % 2^16)
  | .tlyStatus => some (s.watchUsed i)
  | .tlyValue => some (s.tally (1024 * i + u)).toNat
  | .drmStatus => some (readDrmStatus s i)
  | .drmFenced => some (mask 16 fun j => (s.chan (16 * i + j)).fenced)
  | .drmMapout => some (mask 16 (fun j => s.dev.pend.channels.getLsbD (16 * i + j)) * 2^16
      + mask 16 fun j => (s.chan (16 * i + j)).mapped)
  | .drmRetire => some (min (s.stack i).heldRet 0xFFFF * 2^16 + min (retireListed s i) 4096)
  | .drmTemp => some (if !(s.stack i).sampled then 0 else (s.stack i).sensorOk.toNat * 2^16 + (match (s.stack i).temp with
      | some t => field16 t
      | none => 0x8000))
  | .drmSpread => some s.dram.shareMib
  | .drmLocalBase => some (localWindow s i).1
  | .drmLocalSize => some (localWindow s i).2
  | .supSrvSlots => some s.serving.slots.length
  | .supSrvQueued => some (s.serving.queue.filter fun q => q.home.isNone).length
  | .supSrvStepLo => some (s.serving.step % 2^32)
  | .supSrvStepHi => some (s.serving.step / 2^32)
  | .supTurnState => some (flag sel.draining.isSome 8 + phaseCode sel.phase)
  | .supPolicyVer => some (curVer sel).toNat
  | .supDrainVer => some (drainVer s (selInst s)).toNat
  | .supDrainRefs => some (drainRefs s (selInst s))
  | .supTurnCount => some sel.turns.toNat
  | .supTurnForced => some sel.turnsForced.toNat
  | .supTurnAbandon => some sel.turnsAbandoned.toNat
  | .supTurnLastUs => some sel.lastUs.toNat
  | .supSsSeqLo => some (sel.nextSeq % 2^32)
  | .supSsSeqHi => some (sel.nextSeq / 2^32)
  | .supSsCap => some (storeCap s (selInst s))
  | .supSsOverwrite => some sel.overwritten.toNat
  | .supSsRewards => some sel.rewards.toNat
  | .supSsMixed => some sel.mixed.toNat
  | .supSsUnread => some sel.unread.toNat
  | .thrCollOpen => some (s.router.colls.filter fun c => c.2.isOpen && (planColl s c.1).any fun p => p.point.isSome).length
  | .thrCollSlow => some s.router.slow.length
  | .thrStatus => some (readThrStatus s)
  | .thrShards => some s.thresher.shards.length
  | .thrLagging => some (s.thresher.shards.filter (·.lagging)).length
  | .thrStepLo => some (settledStep s % 2^32)
  | .thrStepHi => some (settledStep s / 2^32)
  | .thrSketchUsed => some (ceilDiv (s.thresher.shards.map (sketchBytes s)).sum 1024)
  | .thrPoolFree => some ((poolBytes s - poolUsed s) / 2^20)
  | .nwtRisk => some (s.nwt.sheafMax % 256 * 2^8 + s.nwt.risk % 256)
  | .nwtCompA => some (s.nwt.comps.getD 3 0 * 2^24 + s.nwt.comps.getD 2 0 * 2^16 + s.nwt.comps.getD 1 0 * 2^8
      + s.nwt.comps.getD 0 0)
  | .nwtCompB => some (s.nwt.comps.getD 4 0)
  | .nwtThresh => some ((survival s).preemptAt % 256 * 2^8 + (survival s).secureAt % 256)
  | .nwtState => some (readNwtState s)
  | .nwtUncovered => some (uncovered s)
  | .nwtSecuredLag => some (securedLag s)
  | .nwtFallowCore => some (s.dev.fallow.cores.toNat / 2^(32 * u) % 2^32)
  | .nwtFallowClu => some s.dev.fallow.clusters.toNat
  | .nwtFallowMisc =>
    let f := s.dev.fallow
    some (f.furrow.toNat * 2^18 + f.flash.toNat * 2^16 + f.pcie.toNat * 2^12 + f.eth.toNat * 2^4 + f.sup.toNat)
  | .nwtLevel => some (serviceLevel s)
  | .supSvcConn => some s.service.conns.length
  | .supSvcSess => some (s.service.sessions.filter fun x => x.2.conn.isNone).length
  | .frwGrpStatus => some (readGrp s u)
  | .ethPortStatus => some ((s.ethPort u).mode % 16 * 2^4 + flag (s.ethPort u).up 0)
  | .pciPortStatus => some (readPci s u)
  | .mgtI3c => some (s.mgt.i3cEid.toNat * 2^8 + s.mgt.i3cDa.toNat)
  | .mgtSmb => some (s.mgt.smbEid.toNat * 2^8 + 0x5E)
  | .bcnStatus => some s.bcn.gen.toNat
  | .supState => some ((if s.dev.mode = .safe then s.dev.safeCode % 256 else 0) * 2^8 + modeCode s.dev.mode)
  | .supSafeItem => some s.dev.safeItem
  | .supFwState => some (readFwState s)
  | .supFwVerActive => some s.dev.image.verActive.toNat
  | .supFwVerFallback => some s.dev.image.verFallback.toNat
  | .supFuseSvn => some s.dev.fuseSvn
  | .supCfgVer => some s.dev.image.cfgVer.toNat
  | .supStagePages => some (match s.dev.session with
      | some x => x.pages.length
      | none => 0)
  | .supStartMs => some s.dev.startMs
  | .supStarts => some s.dev.starts.toNat
  | .cluShadow => some (flag (s.cluster i).autoEff 2 + flag (s.cluster i).autoSnap.isSome 1)
  | .thrShadow => some (flag s.dev.ordEff 2 + flag s.dev.ordSnap.isSome 1)
  | .pstNowLo => some (s.pst.now % 2^32)
  | .pstStatus => some (flag s.pst.ppsSeen 9 + flag s.pst.isSet 8 + pstCode s.pst.state)
  | .pstOffset => some (ofInt 32 (max (-(2^31 - 1)) (min (2^31 - 1) s.pst.offset)))
  | .pstSetCtrl => some (flag s.pst.armed 1)
  | .almStatus => some (flag s.alm.ready 0)
  | .almSeq => some s.alm.next.toNat
  | .almPinSeq => some s.alm.pinSeq.toNat
  | .pwrStatus => some (readPwrStatus s)
  | .pwrVin => some (min 0xFFFF s.power.vin.toNat)
  | .pwrIin => some (min 0xFFFF s.power.iin)
  | .pwrPin => some (min 0xFFFF s.power.pin)
  | .pwrAclk =>
    let a := s.aclkOf u
    some (effStep s u * 2^16 + a.logic % 8 * 2^12 + a.dram % 8 * 2^8 + a.cap % 8 * 2^4 + aclkCfg s u)
  | .pwrDieTemp => some (match (s.aclkOf u).temp with
      | some t => field16 t
      | none => 0x8000)
  | _ => none

/-- The _LO register of a counter that a _HI register shows through a snapshot (R62). -/
def loOf : RegId → Option RegId
  | .mxeBusyHi => some .mxeBusyLo
  | .mxeLoadstallHi => some .mxeLoadstallLo
  | .mxeStarveHi => some .mxeStarveLo
  | .mxeGprodHi => some .mxeGprodLo
  | .vxeBusyHi => some .vxeBusyLo
  | .strBytesHi => some .strBytesLo
  | .drlBytesHi => some .drlBytesLo
  | .drlDigBytesHi => some .drlDigBytesLo
  | .supSrvStepHi => some .supSrvStepLo
  | .supSsSeqHi => some .supSsSeqLo
  | .thrStepHi => some .thrStepLo
  | _ => none

/-- The register's own value, whatever snapshot a read of it returns. -/
def rawReg (s : State) (r : RegRef) : Nat := (derived s r.id r.inst r.ix).getD (s.reg r.id r.inst r.ix).toNat

/-- The bits of the fields that a condition picks. -/
def fieldMask (fs : List Field) (p : Field → Bool) : Nat :=
  (fs.map fun f => if p f then (2^(f.hi + 1 - f.lo) - 1) * 2^f.lo else 0).sum

/-- The bits of a 48-bit or 64-bit counter's high register that the snapshot holds. -/
def snapBits (r : RegRef) : Nat := fieldMask r.id.spec.fields fun f => decide (f.lo = 0)

/-- What a read of a register returns: reserved and WO bits read 0 (R6, R7), a high register its snapshot (R62).
DEDUCED: log entry 18. -/
def readReg (s : State) (r : RegRef) : Word :=
  let v := rawReg s r
  let readable := fieldMask r.id.spec.fields fun f => f.acc != .wo
  let v := match r.id, loOf r.id with
    | .pstNowHi, _ => s.pst.snap.toNat
    | _, some lo => (v &&& (2^32 - 1 - snapBits r)) ||| SMap.get 0 s.snaps (RegRef.off ⟨lo, r.inst, r.ix⟩)
    | _, none => v
  BitVec.ofNat 32 (v &&& readable)

/-- The matching high register of a _LO counter register. -/
def hiOf : RegId → Option RegId
  | .mxeBusyLo => some .mxeBusyHi
  | .mxeLoadstallLo => some .mxeLoadstallHi
  | .mxeStarveLo => some .mxeStarveHi
  | .mxeGprodLo => some .mxeGprodHi
  | .vxeBusyLo => some .vxeBusyHi
  | .strBytesLo => some .strBytesHi
  | .drlBytesLo => some .drlBytesHi
  | .drlDigBytesLo => some .drlDigBytesHi
  | .supSrvStepLo => some .supSrvStepHi
  | .supSsSeqLo => some .supSsSeqHi
  | .thrStepLo => some .thrStepHi
  | _ => none

/-- R62, R497: a read of a _LO register takes the snapshot that the matching high register returns. -/
def counterLoRead (s : State) (r : RegRef) : State × Word :=
  if r.id = .pstNowLo then pstNowRead s
  else
    match hiOf r.id with
    | none => (s, readReg s r)
    | some hi =>
      let h : RegRef := ⟨hi, r.inst, r.ix⟩
      ({ s with snaps := SMap.set s.snaps r.off (rawReg s h &&& snapBits h) }, readReg s r)

/-! ### The beacon (R465 to R467) -/

/-- Whole °C, rounded down and clamped to 0 to 254; 0xFF without a valid sensor. -/
def beaconTemp (s : State) (i : Nat) : Nat := match (s.stack i).temp with
  | some t => (max 0 (min 254 (t / 16))).toNat
  | none => 0xFF

/-- The mirror's bytes, address by address; 0 in BOOT where the value is not yet known. DEDUCED: log entry 99. -/
def beaconByte (s : State) (gen : Byte) (a : Nat) : Nat :=
  let boot := decide (s.dev.mode = .boot)
  let own := match s.ownId with
    | some m => m
    | none => 0xFFFF
  if a = 0 then modeCode s.dev.mode
  else if a = 1 then gen.toNat
  else if a = 2 then serviceLevel s
  else if a = 3 then s.nwt.risk
  else if a = 4 then s.nwt.sheafMax
  else if a = 5 then (if boot && s.dev.config.isEmpty then 0 else if s.dev.noPosition then 0xFF else s.dev.position)
  else if a = 6 then (if boot && s.dev.config.isEmpty then 0 else own % 256)
  else if a = 7 then (if boot && s.dev.config.isEmpty then 0 else own / 256)
  else if 8 ≤ a ∧ a ≤ 11 then ((List.range 4).map fun j => (s.stack (4 * (a - 8) + j)).level.num * 4^j).sum
  else if 0x10 ≤ a ∧ a ≤ 0x1F then (if boot && (s.stack (a - 0x10)).temp.isNone then 0 else beaconTemp s (a - 0x10))
  else if a = 0x20 then mask 8 fun g => linkRuns (s.link g)
  else if a = 0x21 then mask 8 fun g => (s.link g).gen == 2
  else if a = 0x22 then mask 8 fun k => (s.ethPort k).up
  else if a = 0x23 then mask 4 fun k => (s.pciPort k).speed.any (· ≠ 0)
  else if a = 0x24 then min 255 (s.power.pin / 40)
  else if a = 0x25 then min 255 (s.power.vin.toNat / 250)
  else if a = 0x26 then readNwtState s
  else if 0x28 ≤ a ∧ a ≤ 0x2F then s.pst.now / 256^(a - 0x28) % 256
  else if 0xF0 ≤ a ∧ a ≤ 0xF3 then hwType / 256^(a - 0xF0) % 256
  else if a = 0xF4 then 0x42
  else if a = 0xF5 then 0x01
  else if a = 0xFF then 0xA5
  else 0

/-- The addresses that the map lists. -/
def beaconAddrs : List Nat := List.range 0x30 ++ [0xF0, 0xF1, 0xF2, 0xF3, 0xF4, 0xF5, 0xFF]

/-- R466: a refresh, applied whole; GEN rises by 1. DEDUCED: log entry 99. -/
def beaconRefresh (s : State) : State :=
  let gen := s.bcn.gen + 1
  let m := beaconAddrs.foldl (fun m a => Memory.put 0 m a (BitVec.ofNat 8 (beaconByte s gen a))) []
  { s with bcn := { mirror := m, gen := gen } }

def execBeaconRefresh (s : State) : Host.Outcome State Fault Refusal := powered s (beaconRefresh s)

/-- R465, R467: a read cycle: the byte of the mirror; in OFF nothing drives and the pull-downs read 0. -/
def beaconRead (s : State) (a : Nat) : State :=
  (s.setReg .bcnReads 0 [] (s.reg .bcnReads + 1)).send (.beacon (Memory.get 0 s.bcn.mirror a))

def execBeaconRead (addr : Byte) (s : State) : Host.Outcome State Fault Refusal :=
  .next (if s.on then beaconRead s addr.toNat else s.send (.beacon 0))

end Sys2Proof.Machine
end

