-- ==== Sys2Proof/Machine/Registers.lean ====
section
/-! DEFINITION. Accesses to the register region: reads, writes by access type, and the accesses that are turned away
(R4, R6, R7, R30, R62, R513). -/

namespace Sys2Proof.Machine

/-! ### When a block is busy for its RWI fields -/

/-- R171: a descriptor is queued, running or halted, or a persistent slot is held. -/
def strBusy (x : StrUnit) : Bool := !x.queue.isEmpty || x.active.any Option.isSome || x.pers.any Option.isSome

/-- The cores toward whose rings a RING descriptor of a core goes. -/
def ringsOf (s : State) (k : Nat) (l : List Byte) : List Nat :=
  let d := strD l
  if d.opcode ≠ 2 then [] else if d.mcast then maskCores s (k / 8) d.mcastIdx else [k]

/-- R169: a row is filled, the ring holds a failure mark, or a RING descriptor toward it is queued, running or halted. -/
def ringBusy (s : State) (k u : Nat) : Bool :=
  !(s.str k u).ring.isEmpty || (List.range 128).any fun j =>
    let x := s.str j u
    x.queue.any (fun q => (ringsOf s j q.desc).contains k)
    || x.active.any fun r => match r with
      | some r => (strD r.desc).opcode == 2 && (ringTargets j (strD r.desc) r).contains k
      | none => false

/-- R306: a descriptor that names the digest slot is queued or running. -/
def digestBusy (s : State) (c n : Nat) : Bool :=
  let names := fun (l : List Byte) => (strD l).digestEn && (strD l).digest == n
  (List.range 8).any fun i => (s.core (8 * c + i)).str.any fun x =>
    x.queue.any (fun q => names q.desc) || x.active.any fun r => r.any fun r => names r.desc

/-- Is the block of a register busy for the register's RWI fields. DEDUCED: log entries 20, 21. -/
def rwiBusy (s : State) (r : RegRef) : Bool :=
  let u := r.ix.headD 0
  match r.id with
  | .mxeConvBase | .mxeCplBase | .mxeSpill | .mxeSeedLo | .mxeSeedHi => mxeBusy s r.inst
  | .vxeCplBase => !vxeIdle (s.vxe r.inst)
  | .strCtrl | .strCplBase | .strTokenBase => strBusy (s.str r.inst u)
  | .strRingBase | .strRingCfg => ringBusy s r.inst u
  | .xltCtrl | .xltRootLo | .xltRootHi => (s.cluster r.inst).invalBusy
  | .drlDigExp | .drlDigCtrl | .drlDigLenLo | .drlDigLenHi => digestBusy s r.inst u
  | .frwCtrl => (List.range 8).any fun g => (s.link g).state == .training
  | _ => false

/-! ### A write -/

/-- One field after a write: RW and RWS take the value, W1C clears, RWI takes it while the block is idle. -/
def fieldWrite (busy : Bool) (v old : Nat) (f : Field) : Nat :=
  match f.acc with
  | .rw => setBits old f.hi f.lo (bits v f.hi f.lo)
  | .rws => setBits old f.hi f.lo (bits v f.hi f.lo)
  | .w1c => setBits old f.hi f.lo (bits old f.hi f.lo &&& (2^32 - 1 - bits v f.hi f.lo))
  | .rwi => if busy then old else setBits old f.hi f.lo (bits v f.hi f.lo)
  | .ro => old
  | .wo => old

/-- Would a write change an RWI field. DEDUCED: log entry 20. -/
def rwiChanges (v old : Nat) (fs : List Field) : Bool :=
  fs.any fun f => f.acc == .rwi && bits v f.hi f.lo != bits old f.hi f.lo

/-- R7: a write taken field by field; a busy block's RWI fields stand, and the write is recorded if one would change. -/
def writeFields (s : State) (r : RegRef) (v : Nat) : State :=
  let fs := r.id.spec.fields
  let old := (s.reg r.id r.inst r.ix).toNat
  let busy := rwiBusy s r
  let new := fs.foldl (fieldWrite busy v) old
  let s := if busy && rwiChanges v old fs then s.recordReg r.id r.inst r.ix v else s
  s.setReg r.id r.inst r.ix (BitVec.ofNat 32 new)

/-- A write of a listed register: its fields by their types, and what a write of it does besides.
DEDUCED: log entry 18. DESIGN CHOICE: log entry 22. -/
def writeReg (s : State) (r : RegRef) (w : Word) : State :=
  let v := w.toNat
  let i := r.inst
  let u := r.ix.headD 0
  match r.id with
  | .mxeCplHead => headWrite s (.mxe i) (BitVec.ofNat 5 v)
  | .vxeCplHead => headWrite s (.vxe i) (BitVec.ofNat 5 v)
  | .strCplHead => headWrite s (.str i u) (BitVec.ofNat 5 v)
  | .mxeCtrl =>
    let s := if bit v 2 then mxeDiscard s i v else s
    let s := if bit v 1 then mxeFlush s i else s
    writeFields s r v
  | .vxeCtrl => writeFields (if bit v 1 then vxeFlush s i else s) r v
  | .strCtrl =>
    let s := writeFields s r v
    let s := if bit v 1 then strFlush s i u else s
    let s := if bit v 2 then strAbort s i u else s
    strEnable s i u (bit v 0)
  | .strResume => strResumeWrite s i u w
  | .xltInval => xltInval s i (bit v 8) (v % 8)
  | .drlDigCtrl => writeFields (if bit v 0 then digestArm s i u else s) r v
  | .cluScCfg => scCfgWrite s i w
  | .tlyCtrl => if bit v 0 then tlyClear s i v else s
  | .tlyValue => s.setTally (1024 * i + u) w
  | .drmMapout => mapoutClear s i (v / 65536)
  | .cluShadow => if bit v 0 then staggerCommit s i else s
  | .thrShadow => if bit v 0 then collCommit s else s
  | .pstSetCtrl => if bit v 0 then pstArm s else s
  | .pwrAclk => aclkCfgWrite s u w
  | _ => writeFields s r v

/-! ### Accesses -/

/-- The outcome of a register access: the state and, for a read, what it returns. -/
structure BusRes where
  state : State
  value : Word

/-- An access to the register region at a local physical address: `width` bytes, a write of `val` or a read.
DEDUCED: log entry 19. -/
def regAccess (s : State) (addr width : Nat) (wr : Bool) (val : DWord) : BusRes :=
  let off := addr % 2^32
  let v : Word := val.setWidth 32
  if width ≠ 4 ∨ off % 4 ≠ 0 then ⟨s.recordAccess addr width (if wr then v.toNat else 0), 0⟩
  else if inAlmWindow off then
    (if wr then ⟨s.recordAccess addr 4 v.toNat, 0⟩
     else ⟨s, BitVec.ofNat 32 (leNat (Memory.read 0 s.alm.mram (off - 0x10100000) 4))⟩)
  else
    match findReg off with
    | none => ⟨s.recordAccess addr 4 (if wr then v.toNat else 0), 0⟩
    | some r =>
      if wr then ⟨writeReg s r v, 0⟩
      else
        let (t, x) := counterLoRead s r
        ⟨t, x⟩

/-- A register access from the bus: a read's value is driven. Outside the region there is no register.
DEDUCED: log entry 19. -/
def busAccess (s : State) (addr width : Nat) (wr : Bool) (val : DWord) : State :=
  match regionOf addr with
  | .regs _ =>
    let r := regAccess s addr width wr val
    if wr then r.state else r.state.send (.bus r.value)
  | _ => s

/-- R4. -/
def execMisalignedRegAccess (addr : BitVec 44) (width : Nat) (wr : Bool) (val : DWord) (s : State) :
    Host.Outcome State Fault Refusal := powered s (busAccess s addr.toNat width wr val)
/-- R30. -/
def execUnassignedRegAccess (addr : BitVec 44) (wr : Bool) (val : Word) (s : State) : Host.Outcome State Fault Refusal :=
  powered s (busAccess s addr.toNat 4 wr (val.setWidth 64))
/-- R7. -/
def execRegWrite (addr : BitVec 44) (val : Word) (s : State) : Host.Outcome State Fault Refusal :=
  powered s (busAccess s addr.toNat 4 true (val.setWidth 64))
/-- R62. -/
def execCounterLoRead (addr : BitVec 44) (s : State) : Host.Outcome State Fault Refusal :=
  powered s (busAccess s addr.toNat 4 false 0)

end Sys2Proof.Machine
end

