-- ==== Sys2Proof/Machine/HartMem.lean ====
section
/-! DEFINITION. Loads, stores and atomics of the harts (R27, R28, R31, R139, R140, R195). -/

namespace Sys2Proof.Machine

/-- Where a hart's access goes. -/
inductive HartTarget where
  | imem (off : Nat)
  | dmem (off : Nat)
  | here (a : Nat)
  | peer (g : Nat)
  | refused
  deriving DecidableEq, Repr

/-- R27, R28, R31, R140: an address below 2^44 is the local physical map, one above it a global address; every line of
the access is tested. R141: the PMP entries of hart `h` keep a kernel to its job's regions. DEDUCED: log entry 23. -/
def hartTarget (s : State) (h addr n : Nat) (acc : List Access) : HartTarget :=
  if acc.any (fun a => !pmpOk (s.hart h) addr n a) then .refused else
  let local_ := fun a => if s.lineOk a && s.lineOk (a + n - 1) then HartTarget.here a else .refused
  if imemBase ≤ addr ∧ addr + n ≤ imemBase + 65536 then .imem (addr - imemBase)
  else if dmemBase ≤ addr ∧ addr + n ≤ dmemBase + 65536 then .dmem (addr - dmemBase)
  else if addr < 2^44 then local_ addr
  else match s.locate addr with
    | .here a => local_ a
    | .peer g => .peer g
    | .refused => .refused

/-- A loaded value from its bytes. -/
def loadValue (n : Nat) (signed : Bool) (b : List Byte) : DWord :=
  if signed then BitVec.ofInt 64 (toInt (8 * n) (leNat b)) else BitVec.ofNat 64 (leNat b)

def isRegs (a : Nat) : Bool := match regionOf a with
  | .regs _ => true
  | _ => false

/-- The bytes that a load reads and the state after it. What a poisoned line gives a hart is not stated: it is free, as
are the bytes of another module. DESIGN CHOICE: log entries 28, 29. -/
def hartRead (s : State) (h n : Nat) : HartTarget → State × List Byte
  | .imem off => (s, Memory.read 0 (s.hart h).imem off n)
  | .dmem off => (s, Memory.read 0 (s.hart h).dmem off n)
  | .here a =>
    if isRegs a then
      let r := regAccess s a n false 0
      (r.state, leBytes n r.value.toNat)
    else
      let t := s.noteRange a n
      if s.rangePoison a n then ({ t with freeCtr := t.freeCtr + 1 }, (List.range n).map (Config.freeByte s.freeCtr))
      else (t, s.bytes a n)
  | .peer g => ({ s with freeCtr := s.freeCtr + 1 }, (List.range n).map fun i => Config.peerByte s.freeCtr (g + i))
  | .refused => (s, [])

/-- Bytes stored by a hart. -/
def hartWrite (s : State) (h : Nat) (t : HartTarget) (b : List Byte) : State :=
  match t with
  | .imem off => s.modHart h fun x => { x with imem := Memory.write 0 x.imem off b }
  | .dmem off => s.modHart h fun x => { x with dmem := Memory.write 0 x.dmem off b }
  | .here a => if isRegs a then (regAccess s a b.length true (BitVec.ofNat 64 (leNat b))).state else s.write a b
  | .peer g => s.send (.peerWrite g b false)
  | .refused => s

/-- DEDUCED: log entry 26. -/
def hartLoad (s : State) (h n : Nat) (signed : Bool) (addr : DWord) (rd : Nat) : State :=
  match hartTarget s h addr.toNat n [.read] with
  | .refused => trap s h .loadAccess addr
  | t =>
    let (s, b) := hartRead s h n t
    hartGo s h rd (loadValue n signed b)

/-- DEDUCED: log entry 26. -/
def hartStore (s : State) (h n : Nat) (addr val : DWord) : State :=
  match hartTarget s h addr.toNat n [.write] with
  | .refused => trap s h .storeAccess addr
  | t => hartGo (hartWrite s h t (leBytes n val.toNat)) h 0 0

/-- What an AMO writes, on words of `n` bytes. -/
def amoValue (fn : AmoFn) (n old v : Nat) : Nat :=
  let w := 8 * n
  let a := toInt w (old % 2^w)
  let b := toInt w (v % 2^w)
  match fn with
  | .swap => v % 2^w
  | .add => (old + v) % 2^w
  | .xor => old % 2^w ^^^ v % 2^w
  | .and => old % 2^w &&& v % 2^w
  | .or => old % 2^w ||| v % 2^w
  | .min => if b < a then v % 2^w else old % 2^w
  | .max => if a < b then v % 2^w else old % 2^w
  | .minu => if v % 2^w < old % 2^w then v % 2^w else old % 2^w
  | .maxu => if old % 2^w < v % 2^w then v % 2^w else old % 2^w

/-- The operation code of R195 that a function of 4 bytes has in a shared cache. DESIGN CHOICE: log entry 28. -/
def cacheAmo (fn : AmoFn) (wide : Bool) : Option Nat :=
  if wide then none else match fn with
    | .add => some 0
    | .min => some 1
    | .max => some 2
    | _ => none

def isCacheAddr (a : Nat) : Bool := match regionOf a with
  | .cache _ _ => true
  | _ => false

/-- AMO: in the private data memory, and ADD, MIN and MAX of 4 bytes in a shared cache, here or on another module. -/
def hartAmo (s : State) (h : Nat) (fn : AmoFn) (wide : Bool) (addr val : DWord) (rd : Nat) : State :=
  let n := if wide then 8 else 4
  if addr.toNat % n ≠ 0 then trap s h .storeMisaligned addr
  else
    let here := fun (t : HartTarget) =>
      let (s, b) := hartRead s h n t
      let s := hartWrite s h t (leBytes n (amoValue fn n (leNat b) val.toNat))
      hartGo s h rd (loadValue n true b)
    match hartTarget s h addr.toNat n [.read, .write], cacheAmo fn wide with
    | .dmem off, _ => here (.dmem off)
    | .here a, some _ => if isCacheAddr a then here (.here a) else trap s h .storeAccess addr
    | .peer g, some op =>
      if isCacheAddr (g % 2^44) then
        let (w, s) := s.draw
        hartGo (s.send (.peerAtomic g op 3 (leBytes 4 val.toNat) false)) h rd (w.signExtend 64)
      else trap s h .storeAccess addr
    | _, _ => trap s h .storeAccess addr

/-- LR: only in the private data memory. DEDUCED: log entry 30. -/
def hartLr (s : State) (h : Nat) (wide : Bool) (addr : DWord) (rd : Nat) : State :=
  let n := if wide then 8 else 4
  if addr.toNat % n ≠ 0 then trap s h .loadMisaligned addr
  else match hartTarget s h addr.toNat n [.read] with
    | .dmem off =>
      let b := Memory.read 0 (s.hart h).dmem off n
      hartGo (s.modHart h fun x => { x with resv := some (off, n) }) h rd (loadValue n true b)
    | .refused => trap s h .loadAccess addr
    | _ => trap s h .storeAccess addr

/-- SC: it stores and answers 0 while its reservation holds, else it answers 1; the reservation ends either way.
PRESUMED: log entry 25. -/
def hartSc (s : State) (h : Nat) (wide : Bool) (addr val : DWord) (rd : Nat) : State :=
  let n := if wide then 8 else 4
  if addr.toNat % n ≠ 0 then trap s h .storeMisaligned addr
  else match hartTarget s h addr.toNat n [.write] with
    | .dmem off =>
      let ok := decide ((s.hart h).resv = some (off, n))
      let s := if ok then hartWrite s h (.dmem off) (leBytes n val.toNat) else s
      hartGo (s.modHart h fun x => { x with resv := none }) h rd (if ok then 0 else 1)
    | _ => trap s h .storeAccess addr

/-- DEDUCED: log entry 30. -/
def hartMem (s : State) (h : Nat) (op : MemOp) (addr val : DWord) (rd : Nat) : State :=
  match op with
  | .load n signed => hartLoad s h (2^n.val) signed addr rd
  | .store n => hartStore s h (2^n.val) addr val
  | .lr wide => hartLr s h wide addr rd
  | .sc wide => hartSc s h wide addr val rd
  | .amo fn wide => hartAmo s h fn wide addr val rd

/-- R140. -/
def execHartAccess (h : Hart) (op : MemOp) (addr : DWord) (val : DWord) (rd : Fin 32) (s : State) :
    Host.Outcome State Fault Refusal := powered s (onHart s h (hartMem s h op addr val rd))

def scAmoFn : ScAmo → AmoFn
  | .add => .add | .min => .min | .max => .max

/-- R195: AMOADD.W, AMOMIN.W and AMOMAX.W. -/
def execHartAmo (h : Hart) (fn : ScAmo) (addr : DWord) (val : DWord) (rd : Fin 32) (s : State) :
    Host.Outcome State Fault Refusal := powered s (onHart s h (hartAmo s h (scAmoFn fn) false addr val rd))

end Sys2Proof.Machine
end

