-- ==== Sys2Proof/Machine/PlanLoad.lean ====
section
/-! DEFINITION. The plan: what resident firmware checks when it loads one, what a load sets up, and what an unload ends
(R15, R108, R230, R232, R262, R309, R336, R359, R362, R366, R371, R392, R417, R441). -/

namespace Sys2Proof.Machine

/-! ### The checks -/

/-- The first status that a list of (condition, status) pairs gives. -/
def firstBad (l : List (Bool × Status)) : Option Status := (l.find? fun x => x.1).map Prod.snd

/-- A number outside a range. -/
def outside (lo hi v : Nat) : Bool := decide (v < lo) || decide (hi < v)

/-- An FP32 field read as a value. -/
def fpAt (l : List Byte) (off : Nat) : FVal := fp32.decode (fieldAt l off 4)

def finite (v : FVal) : Bool := match v with
  | .fin _ _ _ => true
  | _ => false

def fpZero : FVal := .fin false 0 0
def fpOne : FVal := .fin false 1 0

/-- R232 on one attention layer record. -/
def attentionBad (l : List Byte) : Option Status :=
  let b := fun i => fieldAt l i 1
  let w := fun i => fieldAt l i 2
  let d := fun i => fieldAt l i 4
  firstBad [
    (l.length != 32 || outside 1 5 (b 0) || decide (b 1 > 2) || decide (b 2 > 4) || outside 1 5 (b 3)
      || !([0, 64, 128, 256].contains (w 4)) || !zeroAt l 10 2 || !zeroAt l 28 4
      || (b 2 != 2 && d 12 != 0) || (b 2 != 3 && d 16 != 0)
      || !(finite (fpAt l 20) && FVal.lt fpZero (fpAt l 20)) || !finite (fpAt l 24), .badDescriptor),
    (decide (d 12 > 8388608) || decide (d 16 > 8388608) || decide (w 6 > 1024) || decide (w 8 > 256), .outOfRange),
    (w 6 != 0 && decide (w 6 < 8) && 8 % w 6 != 0, .shapeUnsupported)]

/-- R262 on one pool. -/
def poolBad (p : Plan) (x : PoolPlan) : Bool :=
  decide (x.id > 63) || !(p.instances.any fun i => i.id == x.inst) || outside 1 16384 x.slots
  || outside 1 65536 x.stepTokens || x.chunk.any (outside 1 x.stepTokens) || decide (x.queue > 65536)
  || outside 1 60000 x.admitMs || !([1, 2, 4, 8].contains x.splitP) || outside 1 8388608 x.splitAt
  || decide (x.slots > x.stepTokens)
  || !(x.splitOver.isEmpty || (x.splitOver.length == x.splitP && x.splitOver.eraseDups == x.splitOver
    && x.splitOver.all fun q => decide (q < 8)))

/-- R309 on an instance's cycle record. -/
def cycleBad (i : InstancePlan) : Option Status := match i.cycle with
  | none => none
  | some c => firstBad [
      (c.length != 32 || decide (fieldAt c 2 1 > 3) || !zeroAt c 3 1 || !zeroAt c 16 16, .badDescriptor),
      (fieldAt c 0 2 != i.id || fieldAt c 4 4 == 0 || fieldAt c 8 2 == 0 || outside 100 60000 (fieldAt c 10 2)
        || outside 1 65536 (fieldAt c 12 4), .outOfRange)]

/-- R336 on an instance's mapping record. -/
def mappingBad (m : MappingPlan) : Option Status :=
  let cap := fp32.decode m.capFactor.toNat
  firstBad [
    (outside 1 512 m.sheaves || outside 1 m.sheaves m.stages || outside 1 65535 m.layers || decide (m.experts > 65535)
      || outside 1 4096 m.expertSpan || outside 1 8 m.topK || decide (m.prefetch > 3) || outside 20 600000 m.firstMs
      || !(FVal.le fpOne cap && FVal.le cap (.fin false 64 0)), .outOfRange),
    (m.sheaves % m.stages != 0, .shapeUnsupported)]

/-- The first two columns of R371 on one rule record. -/
def ruleBad (b : List Byte) : Option Status :=
  let k := fieldAt b 0 1
  let z := fun off n => zeroAt b off n
  let unit := fun off => FVal.le fpZero (fpAt b off) && FVal.lt (fpAt b off) fpOne
  firstBad [
    (b.length != 64 || outside 1 3 k || decide (fieldAt b 1 1 > 7) || !z 35 29 || (k != 3 && decide (fieldAt b 1 1 > 1))
      || (k != 1 && (!z 2 1 || !z 20 12)) || (k != 2 && (!z 3 1 || !z 32 2)) || (k == 1 && !z 8 4), .badDescriptor),
    ((k == 1 && outside 1 15 (fieldAt b 2 1)) || (k == 2 && (outside 1 31 (fieldAt b 3 1) || z 32 2))
      || !unit 4 || !unit 8 || !(finite (fpAt b 12) && FVal.lt fpZero (fpAt b 12))
      || !(finite (fpAt b 16) && FVal.le fpZero (fpAt b 16))
      || !(finite (fpAt b 20) && finite (fpAt b 24) && finite (fpAt b 28)) || decide (fieldAt b 34 1 > 15), .outOfRange)]

/-- The last column of R371: a rule that a trained tensor's shape does not take. -/
def ruleShapeBad (p : Plan) (t : TensorPlan) : Bool :=
  let k := fieldAt (p.rules.getD t.rule []) 0 1
  let (_, r, c) := tensorDims t.shape
  t.trained && (k == 1 || k == 2) && (t.shape.length == 1 || (k == 2 && decide (max r c > 16384))
    || (k == 1 && (decide (min r c > 16384) || decide (max r c > 2097152))))

/-- R392 on the survival record. -/
def survivalBad (x : SurvivalPlan) : Bool :=
  let tol := fp32.decode x.checkTol.toNat
  outside 1 255 x.secureAt || outside 2 255 x.preemptAt || decide (x.preemptAt ≤ x.secureAt)
  || !(FVal.le fpZero tol && FVal.le tol (.fin false 1 (-4))) || outside 5 600 x.takeoverS || decide (x.nvmeCopy > 1)

/-- The shards that a module owns under a plan, as they start (R362, R365, R382). -/
def planShards (p : Plan) (own : Option Nat) : List Shard :=
  ((planOwners p).filter fun o => own = some o.owner).filterMap fun o =>
    (p.instances.findSome? fun i => i.tensors.find? fun x => x.id = o.tensor).map fun t =>
      let (m, r, c) := tensorDims t.shape
      let master := List.replicate (m * r * c) (0 : Word)
      let h := startHalf (ruleOf (p.rules.getD o.rule [])) (t.shape.length == 1) m r c master
      { tensor := t.id, rule := o.rule, mats := m, rows := r, cols := c, halves := [h, h], masterFp := masterFpOf master }

/-- The bytes of DRAM that a job may be given: all but the retired pages (R209, R214). -/
def usableDram (s : State) : Nat := s.dramCap - 65536 * (s.dram.retired.map Prod.fst).eraseDups.length

/-- R372: the breakpoint steps of a schedule must not decrease. -/
def scheduleBad : List (Nat × Word) → Bool
  | a :: b :: t => decide (b.1 < a.1) || scheduleBad (b :: t)
  | _ => false

/-- R393: the secured pool: the secured state of every shard of this module's buddy with its shard record, and one region
the size of the largest slot. -/
def securedPool (s : State) (p : Plan) : Nat :=
  match buddyOf s with
  | none => 0
  | some b =>
    let own := planShards p (some b)
    let t := { s with plan := some p }
    (own.map fun y => slotBytes y + factorBytes t y + sketchBytes t y / 2 + 64).sum + (own.map slotBytes).foldl max 0

/-- R366, R369, R393: the thresher's sizes against what this module owns: the areas, the slots in place, the
secured pool and the KV pool in DRAM. -/
def thresherBad (s : State) (p : Plan) (x : ThresherPlan) : Option Status :=
  let own := planShards p s.ownId
  let t := { s with plan := some p }
  firstBad [
    (outside 1 262144 x.shadowMib || outside 1 262144 x.gradMib || outside 1 262144 x.jrnlMib
      || outside 1 10000 x.jrnlWaitMs || decide (x.rsv > 16383) || decide (x.ret > 16383)
      || (x.updMask == 0 && own.any fun y => matrixRule (shardRule t y)), .outOfRange),
    (own.any (fun y => decide (slotBytes y > x.shadowMib * 2^20))
      || decide ((own.map (sketchBytes t)).sum > 268173312)
      || decide ((x.shadowMib + x.gradMib + x.jrnlMib) * 2^20 + p.kvPages * 2^p.kvPageLog
        + (own.map fun y => slotBytes y + 2 * factorBytes t y).sum + securedPool s p > usableDram s), .noResource)]

/-- R230: a pool's base is aligned to 2 MiB and its page count is at most 2^23, on this module and on the others.
DESIGN CHOICE, for the statuses: log entry 131. -/
def poolAreaBad (p : Plan) : Option Status :=
  firstBad [(p.kvBase % 2^21 != 0, .badDescriptor), ((p.kvPages :: p.kvPagesAt).any fun n => decide (n > 2^23), .outOfRange)]

/-- What the plan asks of this module is there: no fallow core or cluster, and room for the KV pool (R417). -/
def unitsMissing (s : State) (p : Plan) : Bool :=
  (List.range 128).any (fun k => p.cores.getLsbD k && s.coreFallow k)
  || (List.range 16).any (fun c => p.clusters.getLsbD c && s.clusterFallow c)
  || decide (p.kvPages * 2^p.kvPageLog > usableDram s)

/-- The first check that a plan fails, the checks taken in the order of their rules. DESIGN CHOICE: log entry 53. -/
def planBad (s : State) (p : Plan) : Option Status :=
  let atts := (p.instances.map (·.attention)).flatten
  let tensors := (p.instances.map (·.tensors)).flatten
  let page := fun (l : List Byte) => 16 - fieldAt l 1 1
  (firstBad [(p.constellations.any fun c => decide (c.members > 4096), .outOfRange),
      (atts.any fun l => page l != p.kvPageLog, .badDescriptor)])
    <|> poolAreaBad p
    <|> atts.findSome? attentionBad
    <|> firstBad [(decide (p.pools.length > 64) || p.pools.any (poolBad p)
          || decide ((p.pools.map (·.slots)).sum > 16384), .outOfRange)]
    <|> p.instances.findSome? cycleBad
    <|> p.instances.findSome? (fun i => mappingBad i.mapping)
    <|> firstBad [(p.gen1Peer && p.instances.any fun i => !i.mapping.tervar, .badDescriptor)]
    <|> p.rules.findSome? ruleBad
    <|> firstBad [(decide (p.rules.length > 64) || decide (p.schedules.length > 16) || p.schedules.any scheduleBad, .outOfRange),
        (tensors.any (ruleShapeBad p), .shapeUnsupported)]
    <|> p.thresher.bind (thresherBad s p)
    <|> firstBad [(p.survival.any survivalBad, .outOfRange), (unitsMissing s p, .noResource)]

/-! ### The load -/

/-- R108: the job seed written into every core of the job; an engine that is busy ignores it, and the write is recorded. -/
def loadSeeds (s : State) (p : Plan) : State :=
  let lo := BitVec.setWidth 32 p.jobSeed
  let hi := BitVec.setWidth 32 (p.jobSeed >>> 32)
  ((List.range 128).filter fun k => p.cores.getLsbD k).foldl (fun s k =>
    if mxeBusy s k then
      let s := if s.reg .mxeSeedLo k = lo then s else s.recordReg .mxeSeedLo k [] lo.toNat
      if s.reg .mxeSeedHi k = hi then s else s.recordReg .mxeSeedHi k [] hi.toNat
    else (s.setReg .mxeSeedLo k [] lo).setReg .mxeSeedHi k [] hi) s

/-- R187: every tally allocated to the job set to 0 before its first kernel runs. -/
def clearTallies (s : State) (p : Plan) : State :=
  { s with tallies := p.tallies.foldl (fun m t => SMap.set m t.toNat 0) s.tallies }

/-- R141: the harts of the job's cores are in user mode and run, each held to the plan's PMP entries. -/
def startKernels (s : State) (p : Plan) : State :=
  ((List.range 512).filter fun h => decide (p.cores.getLsbD (h / 4) = true)).foldl (fun s h =>
    s.modHart h fun t => { t with mode := .user, pmp := p.pmp, hold := .running }) s

/-- A plan that passed its checks is loaded: every instance starts in GENERATION with no version resident, the owners are
assigned, and the shards this module owns stand at their start. No retired page is among the free frames (R214). -/
def installPlan (s : State) (p : Plan) : State :=
  loadSeeds (startKernels (clearTallies { s with
    plan := some p
    insts := p.instances.foldl (fun (m : SMap Inst) i => SMap.set m i.id {}) []
    serving := { ended := s.serving.ended }
    tiering := { frames := p.frames.filter fun f => !pageRetired s f, fps := p.tierPages, copies := p.tableCopies }
    router := {}
    thresher := { owners := planOwners p, shards := planShards p s.ownId, held := s.thresher.held }
    nwt := { s.nwt with takeovers := [], short := [], learnStopped := false, nvmeCopy := [] } } p) p) p

/-- PLAN without UNLOAD, and what it completes with. -/
def loadPlan (s : State) (p : Plan) : State × Status × Nat :=
  if s.plan.isSome then (s, .noResource, 0x4A)
  else match planBad s p with
    | some st => (s, st, 0)
    | none => (installPlan s p, .ok, 0)

/-! ### The unload -/

/-- Every completion that is owed, given with one status. -/
def endWaiting (s : State) (st : Status) : State :=
  let due := s.service.waiting
  due.foldl (fun s w => respond s w.conn w.ty w.reqId st 0) { s with service := { s.service with waiting := [] } }

/-- The job's own state gone: an eclipse or a handover that runs ends with the job. DEDUCED: log entry 92. -/
def dropJob (s : State) : State :=
  let s := if s.nwt.eclipse = .none ∧ s.nwt.handover = false then s else holdFlips s false
  { s with
    plan := none, insts := [], serving := { ended := s.serving.ended }, thresher := { held := s.thresher.held }
    router := {}, tiering := {}
    dev := { s.dev with mode := match s.dev.mode with
      | .eclipse => .service
      | .drain => .service
      | x => x }
    nwt := { s.nwt with
      eclipse := .none, handover := false, cutover := false, nvmeCopy := [], takeovers := [], short := [], risks := []
      below := [], spent := [], lastEclipse := none, learnStopped := false } }

/-- PLAN with UNLOAD: every open request of the job ends with CANCELLED. DEDUCED: log entries 91, 92. -/
def unloadPlan (s : State) : State × Status × Nat :=
  if s.plan.isNone then (s, .alreadyDone, 0)
  else (dropJob (answerHandover (endWaiting (endRequests s (fun _ => true) 3 .cancelled) .cancelled) .cancelled), .ok, 0)

end Sys2Proof.Machine
end

