-- ==== Sys2Proof/Machine/Service.lean ====
section
/-! DEFINITION. The service protocol: connections and sessions, the checks that every message meets, and the requests of
clients for generation, samples and adapters (R264, R276, R279 to R283, R330 to R333, R421 to R446). -/

namespace Sys2Proof.Machine

/-! ### Connections (R421, R422, R424) -/

/-- Does the module hold connections: resident firmware runs, and the state is not OFF, BOOT or FAILED. -/
def serves (s : State) : Bool :=
  s.dev.started && !noImage s && s.dev.mode != .off && s.dev.mode != .boot && s.dev.mode != .failed

/-- R422: a connection request. -/
def connectionRequest (s : State) (c : Nat) (supported : Bool) : State :=
  if (SMap.find s.service.conns c).isSome then s
  else if serves s && supported && decide (s.service.conns.length < 4096) then
    { s with service := { s.service with conns := SMap.set s.service.conns c {} } }
  else s.send (.refuseConn c)

def execConnectionRequest (conn : Nat) (supported : Bool) (s : State) : Host.Outcome State Fault Refusal :=
  powered s (connectionRequest s conn supported)

/-- R428, R429: a connection breaks; its session stays without one. The operand is how many of the session's last SENDs
had not completed. DESIGN CHOICE: log entry 135. -/
def execConnectionLoss (conn unsent : Nat) (s : State) : Host.Outcome State Fault Refusal :=
  powered s (detach s conn unsent)

/-- R421: remote access is answered with a remote access error NAK. -/
def execRemoteAccessNak (conn : Nat) (s : State) : Host.Outcome State Fault Refusal :=
  powered s (if (SMap.find s.service.conns conn).isSome then s.send (.accessNak conn) else s)

/-! ### The checks of every message (R432 to R436) -/

/-- A row of the type table (R435): the code, who may send it, the first version that has it, whether SAFE accepts it,
whether it is work of the job, and whether it is one of the bulk requests of R436. -/
structure MsgType where
  code : Nat
  tenant : Bool
  operator : Bool
  ver : Nat
  safe : Bool
  job : Bool
  bulk : Bool
  deriving DecidableEq, Repr

def tHello : MsgType := ⟨0x01, true, true, 1, true, false, false⟩
def tAuth : MsgType := ⟨0x02, true, true, 1, true, false, false⟩
def tBye : MsgType := ⟨0x03, true, true, 1, true, false, false⟩
def tStatus : MsgType := ⟨0x04, true, true, 1, true, false, false⟩
def tGenerate : MsgType := ⟨0x10, true, false, 1, false, true, false⟩
def tCancel : MsgType := ⟨0x11, true, true, 1, false, true, false⟩
def tReward : MsgType := ⟨0x18, true, false, 1, false, true, false⟩
def tSampleRead : MsgType := ⟨0x19, true, true, 1, false, true, true⟩
def tAdapterPut : MsgType := ⟨0x20, true, false, 2, false, true, true⟩
def tAdapterDel : MsgType := ⟨0x21, true, false, 2, false, true, false⟩
def tPlan : MsgType := ⟨0x30, false, true, 2, false, false, true⟩
def tWeightSet : MsgType := ⟨0x31, false, true, 2, false, true, true⟩
def tLearn : MsgType := ⟨0x32, false, true, 2, false, true, false⟩
def tSecure : MsgType := ⟨0x33, false, true, 2, false, true, false⟩
def tHandover : MsgType := ⟨0x34, false, true, 2, false, true, false⟩
def tTenant : MsgType := ⟨0x35, false, true, 2, false, false, false⟩
def tCalRead : MsgType := ⟨0x38, false, true, 2, true, false, true⟩
def tCalWrite : MsgType := ⟨0x39, false, true, 2, true, false, true⟩
def tFwBlock : MsgType := ⟨0x40, false, true, 1, true, false, true⟩

/-- Is a body's length one that the type table gives. -/
def bodySizeOk (t : MsgType) (body : List Byte) : Bool :=
  let n := body.length
  if t.code = 0x01 then n == 16 else if t.code = 0x02 then n == 128 else if t.code = 0x03 then n == 0
  else if t.code = 0x04 then n == 32
  else if t.code = 0x10 then
    decide (n ≤ 4064) && (if bit (fieldAt body 1 1) 4 then n == 64 + 4 * fieldAt body 12 4 else n == 88)
  else if t.code = 0x11 then n == 8 else if t.code = 0x18 then n == 16 else if t.code = 0x19 then n == 48
  else if t.code = 0x20 then n == 32 else if t.code = 0x21 then n == 8 else if t.code = 0x30 then n == 32
  else if t.code = 0x31 then n == 56 else if t.code = 0x32 then n == 8 else if t.code = 0x33 then n == 0
  else if t.code = 0x34 then n == 8 else if t.code = 0x35 then n == 96
  else if t.code = 0x38 then n == 32 else if t.code = 0x39 then n == 32 else n == 40

/-- The session that an authenticated connection belongs to. -/
def connSession (x : Conn) : Option DWord := if x.auth then x.hello.map Prod.fst else none

def isTenant (b : Binding) : Bool := match b with
  | .tenant _ => true
  | .operator _ => false

/-- The tenant of a connection, none for the operator. -/
def connTenant (x : Conn) : Option Nat := match x.hello with
  | some (_, .tenant t) => some t
  | _ => none

/-- GENERATE requests of a session, queued or running. DEDUCED: log entry 87. -/
def openGenerates (s : State) (sess : DWord) : Nat :=
  (s.serving.queue.filter fun q => q.req.session == sess).length
  + (s.serving.slots.filter fun x => x.2.req.session == sess && x.2.state != .ending).length

/-- The types of R436's bulk requests. -/
def bulkCode (c : Nat) : Bool := [0x19, 0x20, 0x30, 0x31, 0x38, 0x39, 0x40].contains c

/-- Step 5: a limit of R436. DEDUCED: log entry 87. -/
def limitHit (s : State) (x : Conn) (c : Nat) (t : MsgType) : Bool :=
  if t.code = 0x10 then (connSession x).any fun id => decide (openGenerates s id ≥ 16384)
  else
    let open_ := s.service.waiting.filter fun w => w.conn = c
    decide (open_.length ≥ 64) || (t.bulk && decide ((open_.filter fun w => bulkCode w.ty).length ≥ 4))

/-- Step 6: the REQUEST_ID of a GENERATE (R433). -/
def requestIdBad (s : State) (x : Conn) (id : DWord) : Option (Status × Nat) :=
  if some (reqModule id) ≠ s.ownId ∨ some (reqTenant id) ≠ connTenant x then some (.outOfRange, 0x44)
  else if (queuedReq s id).isSome || (slotOfReq s id).isSome || hasEnded s id then some (.alreadyDone, 0x43)
  else none

/-- Steps 1 to 6 of R432: the completion of the first step that fails. DEDUCED: log entries 12, 82, 83. -/
def msgCheck (s : State) (t : MsgType) (m : Msg) (x : Conn) : Option (Status × Nat) :=
  let hello := decide (t.code = 0x01)
  let open_ := hello || decide (t.code = 0x02)
  if (if hello then m.version == 0 else m.version.toNat != x.version) || m.flags != 0 || m.rsvd5 != 0 || m.rsvd28 != 0
    || m.bodyLen.toNat != m.body.length || !bodySizeOk t m.body then some (.badDescriptor, 0x47)
  else if !hello && decide (x.version < t.ver) then some (.badDescriptor, 0x41)
  else if t.code = 0x10 ∧ x.version = 1 ∧ (fieldAt m.body 1 1 % 4 ≠ 0 ∨ bit (fieldAt m.body 2 1) 1 = true) then
    some (.badDescriptor, 0x41)
  else if !open_ && !x.auth then some (.bindingFail, 0x48)
  else if !open_ && (match x.hello with
      | some (_, b) => if isTenant b then !t.tenant else !t.operator
      | none => true) then some (.bindingFail, 0x42)
  else if (s.dev.mode == .safe && !t.safe) || (t.job && s.plan.isNone) then some (.unavailable, 0x4B)
  else if limitHit s x m.conn t then some (.noResource, 0x46)
  else if t.code = 0x10 then requestIdBad s x m.requestId else none

/-- The completion of a message: for a GENERATE it is its TERMINAL, whose END no rule gives here. -/
def complete (s : State) (t : MsgType) (m : Msg) (st : Status) (detail : Nat) (body : List Byte := []) : State :=
  if t.code = 0x10 then
    sendMsg { s with freeCtr := s.freeCtr + 1 } m.conn
      ⟨0x13, st, detail, m.requestId, terminalBody (Config.freeByte s.freeCtr 0).toNat 0 0 0 0 0 0⟩
  else respond s m.conn t.code m.requestId st detail body

/-- A message received on an open connection: counted, checked, and acted on when every check passes. -/
def received (s : State) (t : MsgType) (m : Msg) (act : State → Conn → State) : State :=
  match SMap.find s.service.conns m.conn with
  | none => s
  | some x =>
    let s := s.incReg .supSvcRx
    match msgCheck s t m x with
    | some (st, d) => complete (s.incReg .supSvcReject) t m st d
    | none => act s x

/-- A bulk reference's LENGTH (R427). DEDUCED: log entry 86. -/
def refLen (m : Msg) (off : Nat) : Nat := fieldAt m.body (off + 8) 8

/-- A message whose bulk reference stands at an offset: ZERO for LENGTH 0, FAULT_HALT when the read of `n` bytes fails.
DEDUCED: log entry 86. -/
def withBulk (s : State) (t : MsgType) (m : Msg) (off n : Nat) (b : Bulk) (act : State → List Byte → State) : State :=
  if refLen m off = 0 then complete s t m .zero 0
  else match b with
    | some d =>
      if refLen m off < n ∨ d.length < n then complete (s.incReg .supSvcReject) t m .faultHalt 0x45
      else act s (d.take n)
    | none => complete (s.incReg .supSvcReject) t m .faultHalt 0x45

/-- A completion that waits for its condition (R435). -/
def await (s : State) (x : Conn) (t : MsgType) (m : Msg) (why : Owed) : State :=
  { s with service := { s.service with
    waiting := s.service.waiting ++ [Waiting.mk ((connSession x).getD 0) m.conn t.code m.requestId why] } }

/-! ### Set-up (R425, R426, R428, R429) -/

/-- DEDUCED: log entry 85. -/
def sameBinding (a b : Binding) : Bool := match a, b with
  | .tenant x, .tenant y => x == y
  | .operator _, .operator _ => true
  | _, _ => false

/-- The bytes of the HELLO completion. MODULE and POSITION of a module that has none are free.
DESIGN CHOICE: log entry 89. -/
def helloBody (s : State) (nonce : List Byte) : List Byte :=
  let free := fun i => (Config.freeByte s.freeCtr i).toNat
  nonce ++ leBytes 2 (match s.ownId with
    | some m => m
    | none => free 32 + 256 * (free 33 % 16))
  ++ leBytes 1 (if s.dev.noPosition then free 34 else s.dev.position) ++ leBytes 5 0

/-- A HELLO that passes its header. DESIGN CHOICE: log entry 51. DEDUCED: log entry 82. -/
def helloMsg (s : State) (m : Msg) : State :=
  let b := m.body
  let role := fieldAt b 0 1
  let id := BitVec.ofNat 64 (fieldAt b 8 8)
  let bind : Binding := if role = 1 then .tenant (fieldAt b 2 2) else .operator (fieldAt b 1 1)
  if (role ≠ 1 ∧ role ≠ 2) ∨ fieldAt b 1 1 > 3 ∨ fieldAt b 2 2 > 4095 ∨ zeroAt b 4 4 = false then
    complete s tHello m .badDescriptor 0x01
  else if (session? s id).any fun y => !sameBinding y.binding bind then complete s tHello m .bindingFail 0x4C
  else
    let nonce := (List.range 32).map (Config.freeByte s.freeCtr)
    let body := helloBody s nonce
    let s := { s with freeCtr := s.freeCtr + 1, service := { s.service with
      sessions := s.service.sessions.map fun y =>
        if y.2.conn = some m.conn then (y.1, { y.2 with conn := none, detachedAt := s.pst.up }) else y } }
    let s := modConn s m.conn fun x => { x with
      version := if x.hello.isSome then x.version else min m.version.toNat 2
      hello := some (id, bind), role := role, tenant := fieldAt b 2 2, nonce := nonce
      helloAt := if x.hello.isSome && !x.auth then x.helloAt else s.pst.up, auth := false }
    respond s m.conn 0x01 m.requestId .ok 0 body

def execHello (m : Msg) (s : State) : Host.Outcome State Fault Refusal :=
  powered s (received s tHello m fun s _ => helloMsg s m)

/-- The key that a HELLO's binding names: none for an unknown or disabled tenant, or an empty or REVOKED slot. -/
def bindingKey (s : State) : Binding → Option (List Byte)
  | .tenant t => match SMap.find s.service.tenants t with
    | some y => if y.disabled then none else some y.key
    | none => none
  | .operator k => containerKey s s.dev.config (0x10 + k)

/-- The 43 bytes that AUTH signs. -/
def authText (x : Conn) (id : DWord) : List Byte :=
  x.nonce ++ leBytes 8 id.toNat ++ leBytes 1 x.role ++ leBytes 2 x.tenant

/-- DEDUCED: log entry 84. -/
def authVerifies (s : State) (x : Conn) (sig : List Byte) : Bool := match x.hello with
  | none => false
  | some (id, b) => match bindingKey s b with
    | some k => edVerify false "VL8160-SV" k (authText x id) sig
    | none => false

/-- R428, R429, R445: the session goes to a connection: an older one closes, what had not been sent on it is sent again,
then what the session holds, in order. How many SENDs an open older connection had not completed is free.
DESIGN CHOICE: log entry 135. -/
def takeSession (s : State) (c : Nat) (id : DWord) (b : Binding) : State :=
  match session? s id with
  | none => { s with service := { s.service with
      sessions := s.service.sessions ++ [(id, ({ binding := b, conn := some c } : SvcSession))] } }
  | some y =>
    let (again, s) := match y.conn with
      | some o =>
        let (n, t) := s.draw
        if o = c then ([], s) else (lastOf (n.toNat % (y.flight.length + 1)) y.flight, closeConn t o)
      | none => (y.flight, s)
    let s := modSession s id fun y => { y with conn := some c, ring := [], fenced := [], flight := [] }
    let s := if again.isEmpty then s else s.incReg .supSvcResent 0 [] again.length
    (again ++ y.ring ++ y.fenced).foldl (fun s r => toSession s id r) s

/-- An AUTH that passes its header. DEDUCED: log entry 84. -/
def authMsg (s : State) (m : Msg) (x : Conn) : State :=
  if zeroAt m.body 114 14 = false then complete s tAuth m .badDescriptor 0x01
  else if authVerifies s x (m.body.take 114) then
    match x.hello with
    | none => s
    | some (id, b) =>
      if (session? s id).any fun y => !sameBinding y.binding b then complete s tAuth m .bindingFail 0x4C
      else
        let s := respond (modConn s m.conn fun x => { x with auth := true }) m.conn 0x02 m.requestId .ok 0
        takeSession s m.conn id b
  else
    let s := (modConn s m.conn fun x => { x with fails := x.fails + 1 }).incReg .supSvcAuthfail
    let s := complete s tAuth m .sigFail 0x49
    if x.fails + 1 ≥ 3 then closeConn s m.conn else s

def execAuth (m : Msg) (s : State) : Host.Outcome State Fault Refusal :=
  powered s (received s tAuth m fun s x => authMsg s m x)

/-- R425: 10 s after HELLO without a successful AUTH. -/
def authTimeout (s : State) (c : Nat) : State :=
  match SMap.find s.service.conns c with
  | some x => if x.hello.isSome && !x.auth && decide (s.pst.up ≥ x.helloAt + 10 * 10^9) then closeConn s c else s
  | none => s

/-- DESIGN CHOICE: log entry 2. -/
def execAuthTimeout (conn : Nat) (s : State) : Host.Outcome State Fault Refusal := powered s (authTimeout s conn)

def execBye (m : Msg) (s : State) : Host.Outcome State Fault Refusal :=
  powered s (received s tBye m fun s _ => closeConn (complete s tBye m .ok 0) m.conn)

/-- R428: 60 s without a connection. Terminals held for a fenced home have their own limit (R445).
DEDUCED: log entry 93. -/
def sessionTimeout (s : State) (id : DWord) : State :=
  match session? s id with
  | some y =>
    if y.conn.isNone && y.fenced.isEmpty && decide (s.pst.up ≥ y.detachedAt + 60 * 10^9) then expireSession s id else s
  | none => s

/-- DESIGN CHOICE: log entry 2. -/
def execSessionTimeout (session : DWord) (s : State) : Host.Outcome State Fault Refusal := powered s (sessionTimeout s session)

/-- R445: the FENCED terminals of a session that has not reconnected 60 s after the takeover ended. -/
def fencedExpiry (s : State) (id : DWord) : State :=
  match session? s id with
  | some y =>
    if y.conn.isNone && !(s.nwt.takeovers.any (·.begun)) && decide (s.pst.up ≥ s.nwt.takenAt + 60 * 10^9) then
      let s := modSession s id fun y => { y with fenced := [] }
      if y.ring.isEmpty && openGenerates s id == 0 then
        { s with service := { s.service with sessions := s.service.sessions.filter fun z => z.1 ≠ id } }
      else s
    else s
  | none => s

def execFencedTerminalExpiry (session : DWord) (s : State) : Host.Outcome State Fault Refusal :=
  powered s (fencedExpiry s session)

/-! ### GENERATE (R264, R437) -/

def genOf (m : Msg) (sess : DWord) (tenant : Nat) (prompt : List Word) : GenReq :=
  let b := m.body
  let fl := fieldAt b 1 1
  let w := fun off => BitVec.ofNat 32 (fieldAt b off 4)
  { reqId := m.requestId, session := sess, tenant := tenant, pool := fieldAt b 0 1
    adapterEn := bit fl 0, pin := bit fl 1
    stop0 := if bit fl 2 then some (w 28) else none, stop1 := if bit fl 3 then some (w 32) else none
    topkEn := bit (fieldAt b 2 1) 0, toppEn := bit (fieldAt b 2 1) 1
    adapterId := fieldAt b 4 2, topK := fieldAt b 6 2, policyVer := w 8, promptLen := fieldAt b 12 4
    maxNew := fieldAt b 16 4, temp := w 20, topP := w 24, seed := BitVec.ofNat 64 (fieldAt b 40 8), prompt := prompt }

/-- Step 1 of R264. -/
def genMalformed (m : Msg) (r : GenReq) : Bool :=
  let b := m.body
  let fl := fieldAt b 1 1
  let temp := fp32.decode r.temp.toNat
  let top := fp32.decode r.topP.toNat
  decide (fl ≥ 32) || decide (fieldAt b 2 1 ≥ 4) || !zeroAt b 3 1 || !zeroAt b 36 4 || !zeroAt b 48 16
  || !finite temp || !FVal.le fpZero temp
  || (if r.toppEn then !(FVal.lt fpZero top && FVal.le top fpOne) else r.topP != 0)
  || (!r.adapterEn && r.adapterId != 0) || (!r.topkEn && r.topK != 0) || (!r.pin && r.policyVer != 0)
  || (r.stop0.isNone && !zeroAt b 28 4) || (r.stop1.isNone && !zeroAt b 32 4)
  || (!bit fl 4 && (!zeroAt b 84 4 || refLen m 64 != 4 * r.promptLen))

/-- Is a policy version resident (R312). -/
def residentVer (x : Inst) (v : Word) : Bool := x.current.any (fun c => c.num == v) || x.draining.any fun d => d.num == v

/-- The pages that a list of queued requests will need on a position. -/
def queuedPagesAt (s : State) (pos : Nat) (l : List Queued) : Nat :=
  (l.map fun q => match planPool s q.req.pool with
    | some p => reservationAt s p q.req pos
    | none => 0).sum

/-- R263: the pages that a tenant's slots reserve and its queued requests will need on one module, by its position. -/
def tenantPages (s : State) (t pos : Nat) : Nat :=
  ((s.serving.slots.filter fun x => x.2.req.tenant = t).map fun x => slotPagesAt s pos x.2).sum
  + queuedPagesAt s pos (s.serving.queue.filter fun q => q.req.tenant = t)

/-- R263: the slots that a tenant holds and its queued requests, over all pools of the sheaf. -/
def tenantSlots (s : State) (t : Nat) : Nat :=
  (s.serving.slots.filter fun x => x.2.req.tenant = t).length + (s.serving.queue.filter fun q => q.req.tenant = t).length

def poolQueued (s : State) (p : Nat) : List Queued := s.serving.queue.filter fun q => q.req.pool = p

/-- Can no further request of a pool wait: the queue is full, or with QUEUE 0 the request is not to be admitted at once. -/
def queueFull (s : State) (p : PoolPlan) (r : GenReq) : Bool :=
  let q := poolQueued s p.id
  if p.queue = 0 then
    poolPaused s p.id || poolHeld s p.id || decide (poolSlots s p.id + q.length ≥ p.slots)
    || !fitsAll s p r fun pos => queuedPagesAt s pos q
  else decide (q.length ≥ p.queue)

/-- R264 after step 1, with the vocabulary check of R437 behind step 3. -/
def genRefused (s : State) (r : GenReq) : Option (Status × Nat) :=
  let t := (SMap.find s.service.tenants r.tenant).getD ⟨0, 0, 0, 0, [], true⟩
  if r.promptLen = 0 ∨ r.maxNew = 0 ∨ (r.topkEn = true ∧ r.topK = 0) then some (.zero, 0)
  else
    match planPool s r.pool with
    | none => some (.outOfRange, 1)
    | some p =>
      let x := inst s p.inst
      if !t.pools.getLsbD r.pool then some (.outOfRange, 1)
      else if r.topK > 4096 then some (.outOfRange, 2)
      else if reqMaxpos r > splitOf p r * 2^20 then some (.outOfRange, 3)
      else if r.prompt.any fun w => decide (w.toNat ≥ ((planInst s p.inst).map (·.vocab)).getD 0) then some (.outOfRange, 4)
      else if x.phase = .unavailable then some (.unavailable, 0)
      else if r.pin && !residentVer x r.policyVer then some (.versionRetired, 0)
      else if r.adapterEn && !((adapter? s p.inst r.adapterId).any fun a => a.tenant == r.tenant && a.current.isSome) then
        some (.adapterMissing, 0)
      else if wholeChunk s p r.promptLen > p.stepTokens then some (.shapeUnsupported, 0)
      else if tenantSlots s r.tenant ≥ t.slotMax then some (.noResource, 1)
      else if (needsOf s p r).any fun pos => decide (tenantPages s r.tenant pos + reservationAt s p r pos > t.pageMax) then
        some (.noResource, 2)
      else if queueFull s p r then some (.noResource, 3)
      else if (needsOf s p r).any fun pos => decide (reservationAt s p r pos > kvPagesAt s pos) then some (.noResource, 4)
      else none

def wordsOf (l : List Byte) (n : Nat) : List Word := (List.range n).map fun i => BitVec.ofNat 32 (fieldAt l (4 * i) 4)

/-- A GENERATE with its prompt at hand: refused, or queued in its pool (R265). -/
def queueGenerate (s : State) (m : Msg) (x : Conn) (prompt : List Byte) : State :=
  let n := fieldAt m.body 12 4
  let r := genOf m ((connSession x).getD 0) ((connTenant x).getD 0) (wordsOf prompt n)
  if genMalformed m r then complete s tGenerate m .badDescriptor 0x01
  else match genRefused s r with
    | some (st, d) => complete s tGenerate m st d
    | none => { s with serving := { s.serving with queue := s.serving.queue ++ [{ req := r, ran := 0, since := s.pst.up }] } }

def generateMsg (s : State) (m : Msg) (x : Conn) (b : Bulk) : State :=
  if bit (fieldAt m.body 1 1) 4 then queueGenerate s m x (m.body.drop 64)
  else withBulk s tGenerate m 64 (refLen m 64) b fun s d => queueGenerate s m x d

def execGenerate (m : Msg) (bulk : Bulk) (s : State) : Host.Outcome State Fault Refusal :=
  powered s (received s tGenerate m fun s x => generateMsg s m x bulk)

/-! ### CANCEL and REWARD (R276, R333, R434) -/

/-- The other module of the job that a TARGET names. DEDUCED: log entry 90. -/
def foreignHome (s : State) (id : DWord) : Option Nat :=
  if some (reqModule id) ≠ s.ownId ∧ (s.plan.any fun p => p.modules.any fun k => k.toNat == reqModule id) = true then
    some (reqModule id) else none

/-- May a session name a request: the operator any, a tenant its own. -/
def mayName (x : Conn) (id : DWord) : Bool := match connTenant x with
  | some t => reqTenant id == t
  | none => true

/-- R276, R434: a message of a client whose TARGET names another home goes to that module, and completes with its
answer; until the answer comes the message waits. DEDUCED: log entry 90. -/
def forwardTo (s : State) (h : Nat) (x : Conn) (t : MsgType) (m : Msg) (answer : Option (Status × Byte)) : State :=
  let s := s.send (.forward h t.code m.body)
  match answer with
  | some (st, d) => complete s t m st d.toNat
  | none => await s x t m (.forwarded h)

/-- What the home does with a message that another module forwarded, and its answer to that module. -/
def answerTo (src : ModuleId) (t : MsgType) (m : Msg) (r : State × Status × Nat) : State :=
  r.1.send (.forwardAnswer src.toNat t.code m.requestId.toNat r.2.1 r.2.2)

/-- The request that a message's TARGET names. -/
def targetOf (m : Msg) : DWord := BitVec.ofNat 64 (fieldAt m.body 0 8)

def cancelMsg (s : State) (m : Msg) (x : Conn) (answer : Option (Status × Byte)) : State :=
  let id := targetOf m
  if !mayName x id then complete s tCancel m .outOfRange 0x10
  else match foreignHome s id with
    | some h => forwardTo s h x tCancel m answer
    | none =>
      let (s, st, d) := cancelReq s id
      complete s tCancel m st d

def execCancel (m : Msg) (via : Via) (s : State) : Host.Outcome State Fault Refusal :=
  match via with
  | .client a => powered s (received s tCancel m fun s x => cancelMsg s m x a)
  | .module src => powered s (answerTo src tCancel m (cancelReq s (targetOf m)))

/-- The instances whose store holds records of a request. -/
def storesOf (s : State) (id : DWord) : List Nat :=
  (s.insts.filter fun x => x.2.store.any fun r => r.reqId == id).map Prod.fst

/-- Has a request ended, and did it commit a token; none while it has not ended or the home no longer knows. -/
def endedWith (s : State) (id : DWord) : Option Bool :=
  match slotOfReq s id with
  | some (_, y) => if y.state = .ending then some (y.generated != 0) else none
  | none => (s.serving.ended.find? fun e => e.1 == id).map Prod.snd

/-- R333: none when the post passes, else the status of the first step that fails. `named` says that the session may
name the request, `seq` that it is a sequence reward. -/
def rewardCheck (s : State) (named : Bool) (id : DWord) (seq : Bool) (p : Sample → Bool) (v : Nat) :
    Option (Status × Nat) :=
  let st := storesOf s id
  if !finite (fp32.decode v) then some (.badDescriptor, 1)
  else if !named
    || !((queuedReq s id).isSome || (slotOfReq s id).isSome || hasEnded s id || !st.isEmpty) then some (.outOfRange, 0x10)
  else if seq && ((queuedReq s id).isSome || ((slotOfReq s id).isSome && (endedWith s id).isNone)
    || endedWith s id == some false) then some (.outOfRange, 0x11)
  else match (st.findSome? fun i => (inst s i).store.find? p) with
    | none => some (.outOfRange, 0x12)
    | some r => if bit r.flags 5 then some (.alreadyDone, 0) else none

/-- The reward written to the record it names (R332). -/
def postReward (s : State) (p : Sample → Bool) (v : Nat) (i : Nat) : State :=
  match (inst s i).store.find? p with
  | none => s
  | some r =>
    let s := modInst s i fun x => { x with
      store := x.store.map fun y => if p y then { y with reward := BitVec.ofNat 32 v, flags := y.flags ||| 32 } else y
      rewards := Word.incSat x.rewards 1 }
    if bit r.flags 4 then countRewarded s i 1 else s

/-- R333 at the home of the request that the message names, and the completion. -/
def rewardHere (s : State) (m : Msg) (named : Bool) : State × Status × Nat :=
  let id := targetOf m
  let ix := fieldAt m.body 8 4
  let v := fieldAt m.body 12 4
  let seq := decide (ix = 0xFFFFFFFF)
  let p := fun (r : Sample) => r.reqId == id && (if seq then bit r.flags 4 else r.index == ix)
  match rewardCheck s named id seq p v with
  | some (st, d) => (s, st, d)
  | none => ((storesOf s id).foldl (fun s i => postReward s p v i) s, .ok, 0)

def rewardMsg (s : State) (m : Msg) (x : Conn) (answer : Option (Status × Byte)) : State :=
  match foreignHome s (targetOf m), mayName x (targetOf m) with
  | some h, true => forwardTo s h x tReward m answer
  | _, named =>
    let (s, st, d) := rewardHere s m named
    complete s tReward m st d

def execReward (m : Msg) (via : Via) (s : State) : Host.Outcome State Fault Refusal :=
  match via with
  | .client a => powered s (received s tReward m fun s x => rewardMsg s m x a)
  | .module src => powered s (answerTo src tReward m (rewardHere s m true))

/-! ### SAMPLE_READ (R330, R331, R440) -/

/-- A sample record's 64 bytes. -/
def sampleBytes (r : Sample) : List Byte :=
  leBytes 8 r.seq ++ leBytes 8 r.reqId.toNat ++ leBytes 8 r.time ++ leBytes 4 r.token.toNat ++ leBytes 4 r.index
  ++ leBytes 4 r.logpFull.toNat ++ leBytes 4 r.logpKept.toNat ++ leBytes 4 r.policy.toNat ++ leBytes 4 r.adapterVer.toNat
  ++ leBytes 4 r.reward.toNat ++ leBytes 2 r.adapterId ++ leBytes 2 r.tenant ++ leBytes 2 r.flags ++ leBytes 2 r.kept
  ++ leBytes 4 r.step.toNat

/-- DEDUCED: log entry 88. DESIGN CHOICE: log entry 89. -/
def sampleReadMsg (s : State) (m : Msg) (x : Conn) (writeOk : Bool) : State :=
  let b := m.body
  let i := fieldAt b 0 2
  let mx := fieldAt b 16 4
  let go := fun (st : Status) d => complete s tSampleRead m st d
  if refLen m 24 = 0 then go .zero 0
  else if !zeroAt b 2 6 || !zeroAt b 20 4 || !zeroAt b 44 4 then go .badDescriptor 1
  else if mx = 0 then go .zero 0
  else if (planInst s i).isNone ∨ mx > 65536 then go .outOfRange 1
  else if !writeOk then complete (s.incReg .supSvcReject) tSampleRead m .faultHalt 0x45
  else
    let sees := fun (r : Sample) => decide (r.seq ≥ fieldAt b 8 8) && (match connTenant x with
      | some t => r.tenant == t
      | none => true)
    let l := ((inst s i).store.filter sees).take (min mx (refLen m 24 / 64))
    let first := match l with
      | r :: _ => r.seq
      | [] => (Config.freeDWord s.freeCtr).toNat
    let next := match l.getLast? with
      | some r => r.seq + 1
      | none => (Config.freeDWord (s.freeCtr + 1)).toNat
    let s := if l.isEmpty then { s with freeCtr := s.freeCtr + 2 } else
      (modInst s i fun x => { x with
        store := x.store.map fun r => if l.any fun y => y.seq == r.seq then { r with read := true } else r }).send
        (.bulkWrite m.conn ((b.drop 24).take 24) (l.map sampleBytes).flatten)
    complete s tSampleRead m .ok 0 (leBytes 8 first ++ leBytes 4 l.length ++ leBytes 8 next)

def execSampleRead (m : Msg) (writeOk : Bool) (s : State) : Host.Outcome State Fault Refusal :=
  powered s (received s tSampleRead m fun s x => sampleReadMsg s m x writeOk)

/-! ### Adapters (R279 to R283) -/

/-- Step 1 of R282 on an image. -/
def adapterMalformed (im : List Byte) (tenant : Nat) : Bool :=
  let n := fieldAt im 0 2
  let fin := fun i => bits (fieldAt im (64 + 2 * i) 2) 14 10 != 31
  decide (im.length < 64) || im.length != 64 + 192 * n || fieldAt im 6 2 != tenant
  || fieldAt im 8 4 == 0 || !zeroAt im 12 4 || !zeroAt im 24 40 || !((List.range (96 * n)).all fin)

/-- The adapter IDs of an instance that count against a tenant's ADAPTER_MAX. -/
def adapterCounts (a : Adapter) : Bool := !a.versions.isEmpty || a.current.isSome || a.next.isSome

/-- R282: the status of the first step that fails. -/
def adapterRefused (s : State) (i : Nat) (tenant : Nat) (im : List Byte) : Option (Status × Nat) :=
  let id := fieldAt im 4 2
  let a := adapter? s i id
  let mine := (s.serving.adapters.filter fun a => a.inst = i && a.tenant = tenant && adapterCounts a).length
  let quota := ((SMap.find s.service.tenants tenant).map (·.adapterMax)).getD 0
  if adapterMalformed im tenant then some (.badDescriptor, 1)
  else if BitVec.ofNat 64 (fieldAt im 16 8) ≠ fingerprint (im.drop 64) then some (.badDescriptor, 6)
  else match planInst s i with
    | none => some (.outOfRange, 1)
    | some p =>
      if p.width % 64 ≠ 0 ∨ fieldAt im 0 2 ≠ p.mapping.layers ∨ fieldAt im 2 2 ≠ p.width / 64 then some (.shapeUnsupported, 0)
      else if a.any fun a => a.tenant != tenant && adapterCounts a then some (.adapterMissing, 0)
      else if a.any fun a => decide (fieldAt im 8 4 ≤ a.top.toNat) then some (.rollback, 0)
      else if !(a.any adapterCounts) && decide (mine + 1 > quota) then some (.noResource, 6)
      else if a.any fun a => decide (a.versions.length ≥ 4) then some (.noResource, 5)
      else none

/-- A publication that passes: the version is stored in two copies and sent to every module that serves the instance
(R282). -/
def publishAdapter (s : State) (i : Nat) (im : List Byte) : State :=
  (storeAdapter s i im).send (.adapterImage i im)

def adapterPutMsg (s : State) (m : Msg) (x : Conn) (bulk : Bulk) : State :=
  let i := fieldAt m.body 0 2
  let t := (connTenant x).getD 0
  withBulk s tAdapterPut m 8 (refLen m 8) bulk fun s im =>
    if !zeroAt m.body 2 6 || !zeroAt m.body 28 4 then complete s tAdapterPut m .badDescriptor 1
    else match adapterRefused s i t im with
      | some (st, d) => complete s tAdapterPut m st d
      | none => await (publishAdapter s i im) x tAdapterPut m (.adapterPut i (fieldAt im 4 2) (BitVec.ofNat 32 (fieldAt im 8 4)))

def execAdapterPut (m : Msg) (bulk : Bulk) (s : State) : Host.Outcome State Fault Refusal :=
  powered s (received s tAdapterPut m fun s x => adapterPutMsg s m x bulk)

/-- R283: the ID is absent from the next boundary. -/
def adapterDelMsg (s : State) (m : Msg) (x : Conn) : State :=
  let i := fieldAt m.body 0 2
  let id := fieldAt m.body 2 2
  if !zeroAt m.body 4 4 then complete s tAdapterDel m .badDescriptor 1
  else if (planInst s i).isNone then complete s tAdapterDel m .outOfRange 1
  else if !((adapter? s i id).any fun a => some a.tenant == connTenant x && (a.current.isSome || a.next.isSome)) then
    complete s tAdapterDel m .adapterMissing 0
  else
    let s := { s with serving := { s.serving with adapters := s.serving.adapters.map fun a =>
      if a.inst = i ∧ a.id = id then { a with deleting := true, next := none } else a } }
    await s x tAdapterDel m (.adapterDel i id)

def execAdapterDel (m : Msg) (s : State) : Host.Outcome State Fault Refusal :=
  powered s (received s tAdapterDel m fun s x => adapterDelMsg s m x)

end Sys2Proof.Machine
end

