-- ==== Sys2Proof/Machine/Operator.lean ====
section
/-! DEFINITION. The operator's messages and the status queries (R294, R310, R363, R396, R400, R441 to R443, R484, R486). -/

namespace Sys2Proof.Machine

/-! ### PLAN (R441) -/

/-- A PLAN message: UNLOAD, or the load of a plan that its reference brought. DESIGN CHOICE: log entry 53. -/
def planMsg (s : State) (m : Msg) (plan : Option Plan) : State :=
  let b := m.body
  let bad := decide (fieldAt b 0 1 > 1) || !zeroAt b 1 7 || !zeroAt b 28 4
  if bit (fieldAt b 0 1) 0 then
    if bad || refLen m 8 != 0 then complete s tPlan m .badDescriptor 1
    else
      let (s, st, d) := unloadPlan s
      complete s tPlan m st d
  else if refLen m 8 = 0 then complete s tPlan m .zero 0
  else match plan with
    | none => complete (s.incReg .supSvcReject) tPlan m .faultHalt 0x45
    | some p =>
      if bad then complete s tPlan m .badDescriptor 1
      else
        let (s, st, d) := loadPlan s p
        complete s tPlan m st d

def execPlanLoad (m : Msg) (bulk : Option Plan) (s : State) : Host.Outcome State Fault Refusal :=
  powered s (received s tPlan m fun s _ => planMsg s m bulk)

/-- DEDUCED: log entry 91. -/
def execPlanUnload (m : Msg) (s : State) : Host.Outcome State Fault Refusal :=
  powered s (received s tPlan m fun s _ => planMsg s m none)

/-! ### WEIGHT_SET, LEARN, SECURE and HANDOVER -/

/-- R294, R295: the publication of a weight set; the data is read once its manifest passes. -/
def weightSetMsg (s : State) (m : Msg) (x : Conn) (manifest data again : Bulk) : State :=
  let fails := fun (s : State) => complete (s.incReg .supSvcReject) tWeightSet m .faultHalt 0x45
  if refLen m 8 = 0 ∨ refLen m 32 = 0 then complete s tWeightSet m .zero 0
  else match manifest with
    | none => fails s
    | some mf =>
      if !zeroAt m.body 0 8 || !zeroAt m.body 28 4 || !zeroAt m.body 52 4 then complete s tWeightSet m .badDescriptor 1
      else match manifestCheck s mf, data with
        | some (st, d), _ => complete s tWeightSet m st d
        | none, none => fails s
        | none, some dt =>
          if again.isNone ∧ (publish s mf dt []).2 = some (.sigFail, 2) then fails s
          else match publish s mf dt (again.getD []) with
            | (s, some (st, d)) => complete s tWeightSet m st d
            | (s, none) => await s x tWeightSet m
                (.weightSet (fieldAt mf 20 4) (BitVec.ofNat 64 (fieldAt mf 8 8)) (BitVec.ofNat 32 (fieldAt mf 16 4)))

def execWeightSet (m : Msg) (manifest : Bulk) (data again : Bulk) (s : State) : Host.Outcome State Fault Refusal :=
  powered s (received s tWeightSet m fun s x => weightSetMsg s m x manifest data again)

/-- R310: the coordinator decides LEARNING; another module sends the command to it. DEDUCED: log entry 90. -/
def askLearning (s : State) (i : Nat) (body : List Byte) : State :=
  if isCoordinator s then decideLearning s i else match coordinator s with
    | some c => s.send (.forward c 0x32 body)
    | none => s

/-- R310: the learn command. -/
def learnMsg (s : State) (m : Msg) (x : Conn) : State :=
  let i := fieldAt m.body 0 2
  let go := fun (st : Status) d => complete s tLearn m st d
  if !zeroAt m.body 2 6 then go .badDescriptor 1
  else if (cycle? s i).isNone then go .outOfRange 1
  else match phaseOf s i with
    | .learning => go .alreadyDone 0
    | .turning => go .alreadyDone 0
    | .unavailable => go .unavailable 0
    | .generation =>
      if s.nwt.learnStopped then go .weightLost 0 else await (askLearning s i m.body) x tLearn m (.learn i)

/-- R310: a learn command that another module sent on to the coordinator. -/
def learnAsked (s : State) (i : Nat) : State :=
  if isCoordinator s ∧ (cycle? s i).isSome ∧ phaseOf s i = .generation ∧ s.nwt.learnStopped = false then decideLearning s i
  else s

def execLearn (m : Msg) (via : Via) (s : State) : Host.Outcome State Fault Refusal :=
  match via with
  | .client _ => powered s (received s tLearn m fun s x => learnMsg s m x)
  | .module _ => powered s (learnAsked s (fieldAt m.body 0 2))

/-- R396: the secure command: the coordinator begins an eclipse at once, another module sends the command to it.
DEDUCED: log entry 90. -/
def secureMsg (s : State) (m : Msg) (x : Conn) : State :=
  let s := if isCoordinator s then beginEclipse s else match coordinator s with
    | some c => s.send (.forward c 0x33 [])
    | none => s
  await s x tSecure m .secure

def execSecure (m : Msg) (via : Via) (s : State) : Host.Outcome State Fault Refusal :=
  match via with
  | .client _ => powered s (received s tSecure m fun s x => secureMsg s m x)
  | .module _ => powered s (if isCoordinator s then beginEclipse s else s)

/-- R400: the handover command. One for another module of the job goes there. DEDUCED: log entry 90. -/
def handoverMsg (s : State) (m : Msg) (x : Conn) (answer : Option (Status × Byte)) : State :=
  let b := m.body
  let k := fieldAt b 0 2
  if k > 4095 ∨ zeroAt b 2 6 = false then complete s tHandover m .badDescriptor 1
  else if some k = s.ownId then
    let s := beginHandover s
    if s.nwt.handover then await s x tHandover m (.handover k) else complete s tHandover m .noResource 0x4D
  else if s.plan.any fun p => p.modules.any fun q => q.toNat == k then forwardTo s k x tHandover m answer
  else complete s tHandover m .outOfRange 1

/-- R400: a handover command that another module forwarded: it is answered when the handover completes. -/
def handoverAsk (s : State) (src : ModuleId) (m : Msg) : State :=
  let s := beginHandover s
  if s.nwt.handover then
    { s with nwt := { s.nwt with handoverAsks := s.nwt.handoverAsks ++ [(src.toNat, m.requestId.toNat)] } }
  else answerTo src tHandover m (s, .noResource, 0x4D)

def execHandover (m : Msg) (via : Via) (s : State) : Host.Outcome State Fault Refusal :=
  match via with
  | .client a => powered s (received s tHandover m fun s x => handoverMsg s m x a)
  | .module src => powered s (handoverAsk s src m)

/-! ### TENANT (R263, R441) -/

/-- DISABLE: every session of the tenant closes, and its open requests are cancelled. -/
def disableTenant (s : State) (t : Nat) : State :=
  let s := endRequests s (fun r => r.tenant == t) 3 .cancelled
  let mine := s.service.sessions.filter fun y => y.2.binding == .tenant t
  let s := (mine.filterMap fun y => y.2.conn).foldl closeConn s
  { s with service := { s.service with sessions := s.service.sessions.filter fun y => y.2.binding ≠ .tenant t } }

/-- DEDUCED: log entry 106. -/
def tenantMsg (s : State) (m : Msg) : State :=
  let b := m.body
  let t := fieldAt b 0 2
  if t > 4095 ∨ fieldAt b 2 2 > 1 ∨ zeroAt b 81 15 = false then complete s tTenant m .badDescriptor 1
  else if fieldAt b 4 4 > 16384 ∨ fieldAt b 8 4 > 8388608 ∨ fieldAt b 12 4 > 65536 then complete s tTenant m .outOfRange 1
  else
    let y : Tenant := ⟨fieldAt b 4 4, fieldAt b 8 4, fieldAt b 12 4, BitVec.ofNat 64 (fieldAt b 16 8), (b.drop 24).take 57,
      bit (fieldAt b 2 2) 0⟩
    let s := { s with service := { s.service with tenants := SMap.set s.service.tenants t y } }
    let s := if y.disabled then disableTenant s t else s
    complete s tTenant m .ok 0

def execTenant (m : Msg) (s : State) : Host.Outcome State Fault Refusal :=
  powered s (received s tTenant m fun s _ => tenantMsg s m)

/-! ### CAL_READ, CAL_WRITE and FW_BLOCK (R484, R486) -/

def calBody (m : Msg) : Bool := zeroAt m.body 0 8 && zeroAt m.body 28 4

def calReadMsg (s : State) (m : Msg) (writeOk : Bool) : State :=
  if refLen m 8 = 0 then complete s tCalRead m .zero 0
  else if !calBody m then complete s tCalRead m .badDescriptor 1
  else if refLen m 8 < calLen then complete s tCalRead m .outOfRange 1
  else if !writeOk then complete (s.incReg .supSvcReject) tCalRead m .faultHalt 0x45
  else
    complete (s.send (.bulkWrite m.conn ((m.body.drop 8).take 24) (flashRead s rCal 0 calLen))) tCalRead m .ok 0

def execCalRead (m : Msg) (writeOk : Bool) (s : State) : Host.Outcome State Fault Refusal :=
  powered s (received s tCalRead m fun s _ => calReadMsg s m writeOk)

/-- R484, R485: a power loss during the write leaves CAL invalid, and nothing completes. DEDUCED: log entry 106.
DESIGN CHOICE, for what a cut write leaves: log entry 137. -/
def calWriteMsg (s : State) (m : Msg) (bulk : Bulk) (powerLost : Bool) : State :=
  withBulk s tCalWrite m 8 calLen bulk fun s c =>
    if !calBody m || (calBad s c true).isSome then complete s tCalWrite m .badDescriptor 1
    else if powerLost then eraseRegion s rCal
    else complete (programAt (eraseRegion s rCal) rCal 0 c) tCalWrite m .ok 0

def execCalWrite (m : Msg) (bulk : Bulk) (powerLost : Bool) (s : State) : Host.Outcome State Fault Refusal :=
  powered s (received s tCalWrite m fun s _ => calWriteMsg s m bulk powerLost)

/-- DEDUCED: log entry 88. -/
def fwBlockMsg (s : State) (m : Msg) (bulk : Bulk) : State :=
  let b := m.body
  let len := fieldAt b 4 4
  withBulk s tFwBlock m 16 (refLen m 16) bulk fun s d =>
    if fieldAt b 8 4 > 1 ∨ zeroAt b 12 4 = false ∨ zeroAt b 36 4 = false ∨ (len ≠ 0 ∧ refLen m 16 ≠ len) then
      complete s tFwBlock m .badDescriptor 1
    else if len > 65536 then complete s tFwBlock m .outOfRange 1
    else
      let (s, st, dt) := fwBlock s (fieldAt b 0 4) len (bit (fieldAt b 8 4) 0) d
      complete s tFwBlock m st dt

def execFwBlock (m : Msg) (bulk : Bulk) (s : State) : Host.Outcome State Fault Refusal :=
  powered s (received s tFwBlock m fun s _ => fwBlockMsg s m bulk)

/-! ### STATUS (R442, R443) -/

/-- Selector 0x01. -/
def identBody (s : State) : List Byte :=
  leBytes 4 (readReg s ⟨.supDeviceId, 0, []⟩).toNat ++ leBytes 4 (readReg s ⟨.supRevision, 0, []⟩).toNat
  ++ leBytes 16 s.dev.serial.toNat ++ leBytes 1 (modeCode s.dev.mode) ++ leBytes 1 (serviceLevel s)
  ++ leBytes 1 ((readReg s ⟨.supState, 0, []⟩).toNat / 256) ++ leBytes 1 0 ++ leBytes 2 (s.ownId.getD 0xFFFF)
  ++ leBytes 1 (if s.dev.noPosition then 0xFF else s.dev.position) ++ leBytes 1 0 ++ leBytes 8 s.pst.now

/-- Selector 0x02. -/
def policyBody (s : State) (i : Nat) : List Byte :=
  leBytes 2 i ++ leBytes 1 (phaseCode (inst s i).phase) ++ leBytes 1 (inst s i).draining.isSome.toNat
  ++ leBytes 4 (curVer (inst s i)).toNat ++ leBytes 4 (drainVer s i).toNat ++ leBytes 4 (drainRefs s i)

/-- Selector 0x03. -/
def dramBody (s : State) : List Byte :=
  leBytes 8 s.dramCap ++ leBytes 32 (mask 256 s.dram.live.contains) ++ leBytes 32 (mask 256 fun n => (s.chan n).mapped)
  ++ leBytes 32 s.dev.pend.channels.toNat

/-- An entry of the ownership report (R363). -/
def ownerBytes (o : OwnerEnt) : List Byte :=
  leBytes 4 o.tensor ++ leBytes 2 o.owner ++ leBytes 1 o.rule ++ leBytes 1 0 ++ leBytes 8 o.params

/-- Selector 0x06: the 24 words of the Nightwatch block. -/
def nightwatchBody (s : State) : List Byte :=
  ((List.range 24).map fun i => leBytes 4 (match findReg (0x11000000 + 4 * i) with
    | some r => (readReg s r).toNat
    | none => 0)).flatten

/-- Selector 0x09: the record of R506 as the Almanac holds it, then the staging pages and the fuse SVN. -/
def firmwareBody (s : State) : List Byte :=
  (match pinRead s.alm.mram itemImage with
    | some b => (b ++ List.replicate 64 0).take 64
    | none =>
      let b := (imageBytes s.dev.image ++ List.replicate 60 0).take 60
      b ++ leBytes 4 (crc32c b))
  ++ leBytes 4 (readReg s ⟨.supStagePages, 0, []⟩).toNat ++ leBytes 4 s.dev.fuseSvn

/-- The units of each kind of selector 0x08. -/
def kindCount (k : Nat) : Nat := [128, 256, 16, 4, 8, 4, 8, 2].getD k 0

def pendHas (u : UnitSets) (k i : Nat) : Bool := match k with
  | 0 => u.cores.getLsbD i | 1 => u.channels.getLsbD i | 2 => u.clusters.getLsbD i | 3 => u.sup.getLsbD i
  | 4 => u.eth.getLsbD i | 5 => u.pcie.getLsbD i | 6 => u.furrow.getLsbD i | _ => u.flash.getLsbD i

def pendClear (u : UnitSets) (k i : Nat) : UnitSets := match k with
  | 0 => { u with cores := u.cores &&& ~~~(BitVec.ofNat 128 (2^i)) }
  | 1 => { u with channels := u.channels &&& ~~~(BitVec.ofNat 256 (2^i)) }
  | 2 => { u with clusters := u.clusters &&& ~~~(BitVec.ofNat 16 (2^i)) }
  | 3 => { u with sup := u.sup &&& ~~~(BitVec.ofNat 4 (2^i)) }
  | 4 => { u with eth := u.eth &&& ~~~(BitVec.ofNat 8 (2^i)) }
  | 5 => { u with pcie := u.pcie &&& ~~~(BitVec.ofNat 4 (2^i)) }
  | 6 => { u with furrow := u.furrow &&& ~~~(BitVec.ofNat 8 (2^i)) }
  | _ => { u with flash := u.flash &&& ~~~(BitVec.ofNat 2 (2^i)) }

/-- Selector 0x08: the pending mark of one unit cleared, and what it completes with. -/
def clearPending (s : State) (k i : Nat) : State × Status × Nat :=
  if k > 7 ∨ i ≥ kindCount k then (s, .outOfRange, 1)
  else if !pendHas s.dev.pend k i then (s, .alreadyDone, 0)
  else
    let s := setPend s (pendClear s.dev.pend k i)
    (if k = 1 then s.modChan i fun c => { c with pending := false } else s, .ok, 0)

/-- Selector 0x05: the entries written to the reference. -/
def ownersMsg (s : State) (m : Msg) (writeOk : Bool) : State :=
  let n := refLen m 8
  if n = 0 then complete s tStatus m .zero 0
  else if !zeroAt m.body 2 6 || !zeroAt m.body 28 4 then complete s tStatus m .badDescriptor 1
  else if !writeOk then complete (s.incReg .supSvcReject) tStatus m .faultHalt 0x45
  else
    let l := s.thresher.owners.take (n / 16)
    let s := if l.isEmpty then s else
      s.send (.bulkWrite m.conn ((m.body.drop 8).take 24) (l.map ownerBytes).flatten)
    complete s tStatus m .ok 0 (leBytes 4 s.thresher.owners.length ++ leBytes 4 l.length ++ leBytes 8 0)

/-- A STATUS message, by its SELECT. -/
def statusMsg (s : State) (m : Msg) (x : Conn) (writeOk : Bool) : State :=
  let b := m.body
  let sel := fieldAt b 0 2
  let i := fieldAt b 2 2
  let ok := fun body => complete s tStatus m .ok 0 body
  let go := fun (st : Status) d => complete s tStatus m st d
  if (connTenant x).isSome ∧ ¬ [1, 2, 4].contains sel then go .bindingFail 0x42
  else if sel = 0 ∨ sel > 9 then go .badDescriptor 1
  else if sel = 5 then ownersMsg s m writeOk
  else if !zeroAt b 8 24 then go .badDescriptor 1
  else if sel = 2 ∨ sel = 4 then
    if !zeroAt b 4 4 then go .badDescriptor 1
    else if (planInst s i).isNone then go .outOfRange 1
    else if sel = 2 then ok (policyBody s i) else ok (inst s i).lastTurn
  else if sel = 8 then
    if !zeroAt b 5 3 then go .badDescriptor 1
    else
      let (t, st, d) := clearPending s (fieldAt b 2 1) (fieldAt b 3 2)
      complete t tStatus m st d
  else if !zeroAt b 2 6 then go .badDescriptor 1
  else if sel = 1 then ok (identBody s)
  else if sel = 3 then ok (dramBody s)
  else if sel = 6 then ok (nightwatchBody s)
  else if sel = 7 then ok (unitBytes s.dev.fallow ++ unitBytes s.dev.pend)
  else ok (firmwareBody s)

def execStatusIdent (m : Msg) (s : State) : Host.Outcome State Fault Refusal :=
  powered s (received s tStatus m fun s x => statusMsg s m x true)
def execStatusPolicy (m : Msg) (s : State) : Host.Outcome State Fault Refusal :=
  powered s (received s tStatus m fun s x => statusMsg s m x true)
def execStatusDram (m : Msg) (s : State) : Host.Outcome State Fault Refusal :=
  powered s (received s tStatus m fun s x => statusMsg s m x true)
def execStatusTurn (m : Msg) (s : State) : Host.Outcome State Fault Refusal :=
  powered s (received s tStatus m fun s x => statusMsg s m x true)
def execStatusOwners (m : Msg) (writeOk : Bool) (s : State) : Host.Outcome State Fault Refusal :=
  powered s (received s tStatus m fun s x => statusMsg s m x writeOk)
def execStatusNightwatch (m : Msg) (s : State) : Host.Outcome State Fault Refusal :=
  powered s (received s tStatus m fun s x => statusMsg s m x true)
def execStatusFallow (m : Msg) (s : State) : Host.Outcome State Fault Refusal :=
  powered s (received s tStatus m fun s x => statusMsg s m x true)
def execStatusClearPending (m : Msg) (s : State) : Host.Outcome State Fault Refusal :=
  powered s (received s tStatus m fun s x => statusMsg s m x true)
def execStatusFirmware (m : Msg) (s : State) : Host.Outcome State Fault Refusal :=
  powered s (received s tStatus m fun s x => statusMsg s m x true)

end Sys2Proof.Machine
end

