-- ==== Sys2Proof/Machine/Dispatch.lean ====
section
/-! DEFINITION. The dispatch of a command to its meaning. -/

namespace Sys2Proof.Machine

def exec (i : Instr) (s : State) : Host.Outcome State Fault Refusal :=
  match i with
  | .misalignedRegAccess addr width wr val => Sys2Proof.Machine.execMisalignedRegAccess addr width wr val s
  | .unassignedRegAccess addr wr val => Sys2Proof.Machine.execUnassignedRegAccess addr wr val s
  | .regWrite addr val => Sys2Proof.Machine.execRegWrite addr val s
  | .counterLoRead addr => Sys2Proof.Machine.execCounterLoRead addr s
  | .constellationComplete id desc seq members => Sys2Proof.Machine.execConstellationComplete id desc seq members s
  | .tlyAdd h w rs1 rs2 => Sys2Proof.Machine.execTlyAdd h w rs1 rs2 s
  | .tlySet h w rs1 rs2 => Sys2Proof.Machine.execTlySet h w rs1 rs2 s
  | .tlyWait h w rs1 rs2 => Sys2Proof.Machine.execTlyWait h w rs1 rs2 s
  | .tlyWaitSatisfied h reported => Sys2Proof.Machine.execTlyWaitSatisfied h reported s
  | .tallyPollTick p => Sys2Proof.Machine.execTallyPollTick p s
  | .tlyPoll h w rs1 rs2 => Sys2Proof.Machine.execTlyPoll h w rs1 rs2 s
  | .remoteTallyArrive src op tally val tag => Sys2Proof.Machine.execRemoteTallyArrive src op tally val tag s
  | .kfence h w => Sys2Proof.Machine.execKfence h w s
  | .riscvFence h tso => Sys2Proof.Machine.execRiscvFence h tso s
  | .kqPush h w rs1 => Sys2Proof.Machine.execKqPush h w rs1 s
  | .strRearm h w rs1 rs2 => Sys2Proof.Machine.execStrRearm h w rs1 rs2 s
  | .strResume h w rs1 => Sys2Proof.Machine.execStrResume h w rs1 s
  | .hartAccess h op addr val rd => Sys2Proof.Machine.execHartAccess h op addr val rd s
  | .hartAmo h fn addr val rd => Sys2Proof.Machine.execHartAmo h fn addr val rd s
  | .tile k => Sys2Proof.Machine.execTile k s
  | .partialMergeDone k g => Sys2Proof.Machine.execPartialMergeDone k g s
  | .staggerWindowEnd c => Sys2Proof.Machine.execStaggerWindowEnd c s
  | .tileDrainDone k => Sys2Proof.Machine.execTileDrainDone k s
  | .egressQueueSpace k u => Sys2Proof.Machine.execEgressQueueSpace k u s
  | .mxeDiscardGroups k => Sys2Proof.Machine.execMxeDiscardGroups k s
  | .mxeFlush k => Sys2Proof.Machine.execMxeFlush k s
  | .mxeEnable k en => Sys2Proof.Machine.execMxeEnable k en s
  | .cplHeadWrite e head => Sys2Proof.Machine.execCplHeadWrite e head s
  | .add k => Sys2Proof.Machine.execAdd k s
  | .sub k => Sys2Proof.Machine.execSub k s
  | .mul k => Sys2Proof.Machine.execMul k s
  | .fma k => Sys2Proof.Machine.execFma k s
  | .min k => Sys2Proof.Machine.execMin k s
  | .max k => Sys2Proof.Machine.execMax k s
  | .abs k => Sys2Proof.Machine.execAbs k s
  | .cvt k => Sys2Proof.Machine.execCvt k s
  | .cmp k => Sys2Proof.Machine.execCmp k s
  | .div k => Sys2Proof.Machine.execDiv k s
  | .sqrt k => Sys2Proof.Machine.execSqrt k s
  | .rsqrt k => Sys2Proof.Machine.execRsqrt k s
  | .rcp k => Sys2Proof.Machine.execRcp k s
  | .exp k => Sys2Proof.Machine.execExp k s
  | .log k => Sys2Proof.Machine.execLog k s
  | .lut k => Sys2Proof.Machine.execLut k s
  | .lutload k => Sys2Proof.Machine.execLutload k s
  | .redsum k => Sys2Proof.Machine.execRedsum k s
  | .redmax k => Sys2Proof.Machine.execRedmax k s
  | .redmin k => Sys2Proof.Machine.execRedmin k s
  | .rmsinv k => Sys2Proof.Machine.execRmsinv k s
  | .smaxRow k => Sys2Proof.Machine.execSmaxRow k s
  | .smaxRescale k => Sys2Proof.Machine.execSmaxRescale k s
  | .smaxMerge k => Sys2Proof.Machine.execSmaxMerge k s
  | .smaxFinal k => Sys2Proof.Machine.execSmaxFinal k s
  | .sample k => Sys2Proof.Machine.execSample k s
  | .vxeFlush k => Sys2Proof.Machine.execVxeFlush k s
  | .vxeEnable k en => Sys2Proof.Machine.execVxeEnable k en s
  | .copy k u => Sys2Proof.Machine.execCopy k u s
  | .ring k u => Sys2Proof.Machine.execRing k u s
  | .egress k u => Sys2Proof.Machine.execEgress k u s
  | .atomic k u => Sys2Proof.Machine.execAtomic k u s
  | .drillRingRowWrite c => Sys2Proof.Machine.execDrillRingRowWrite c s
  | .translationFault c => Sys2Proof.Machine.execTranslationFault c s
  | .pageFillDone c ctx va attempts => Sys2Proof.Machine.execPageFillDone c ctx va attempts s
  | .tierTimeout k u slot => Sys2Proof.Machine.execTierTimeout k u slot s
  | .strAbortHalted k u => Sys2Proof.Machine.execStrAbortHalted k u s
  | .strFlush k u => Sys2Proof.Machine.execStrFlush k u s
  | .strEnable k u en => Sys2Proof.Machine.execStrEnable k u en s
  | .strResumeReg k u val => Sys2Proof.Machine.execStrResumeReg k u val s
  | .xltInvalAll c => Sys2Proof.Machine.execXltInvalAll c s
  | .xltInvalCtx c ctx => Sys2Proof.Machine.execXltInvalCtx c ctx s
  | .xltInvalDone c => Sys2Proof.Machine.execXltInvalDone c s
  | .digestArm c n => Sys2Proof.Machine.execDigestArm c n s
  | .scCfgWrite c val => Sys2Proof.Machine.execScCfgWrite c val s
  | .tlyClear c => Sys2Proof.Machine.execTlyClear c s
  | .tlyValueWrite t val => Sys2Proof.Machine.execTlyValueWrite t val s
  | .staggerCommit c => Sys2Proof.Machine.execStaggerCommit c s
  | .collCommit => Sys2Proof.Machine.execCollCommit s
  | .shadowGroupApply g => Sys2Proof.Machine.execShadowGroupApply g s
  | .refresh ch upsets => Sys2Proof.Machine.execRefresh ch upsets s
  | .patrolScrub ch found => Sys2Proof.Machine.execPatrolScrub ch found s
  | .ueReport copyTo table => Sys2Proof.Machine.execUeReport copyTo table s
  | .ceHourEnd => Sys2Proof.Machine.execCeHourEnd s
  | .channelFence ch cause => Sys2Proof.Machine.execChannelFence ch cause s
  | .mapoutClear c bits => Sys2Proof.Machine.execMapoutClear c bits s
  | .stackTempSample st readings => Sys2Proof.Machine.execStackTempSample st readings s
  | .hotStepTick st => Sys2Proof.Machine.execHotStepTick st s
  | .dramRequestFall c => Sys2Proof.Machine.execDramRequestFall c s
  | .stackOnline st => Sys2Proof.Machine.execStackOnline st s
  | .slowMemberNotice module state reason time => Sys2Proof.Machine.execSlowMemberNotice module state reason time s
  | .stepBoundary news => Sys2Proof.Machine.execStepBoundary news s
  | .pausedBoundaryTick news => Sys2Proof.Machine.execPausedBoundaryTick news s
  | .admitTimeout req => Sys2Proof.Machine.execAdmitTimeout req s
  | .tokenCommit slot run => Sys2Proof.Machine.execTokenCommit slot run s
  | .stepEnd news => Sys2Proof.Machine.execStepEnd news s
  | .cancelNotice slot => Sys2Proof.Machine.execCancelNotice slot s
  | .weightPoison inst pages adapters => Sys2Proof.Machine.execWeightPoison inst pages adapters s
  | .stepReissue inst refills => Sys2Proof.Machine.execStepReissue inst refills s
  | .repairTimeout inst => Sys2Proof.Machine.execRepairTimeout inst s
  | .weightScrub inst tensor resident => Sys2Proof.Machine.execWeightScrub inst tensor resident s
  | .turnStart inst rooms resident => Sys2Proof.Machine.execTurnStart inst rooms resident s
  | .shardArrive inst tensor pos info data again => Sys2Proof.Machine.execShardArrive inst tensor pos info data again s
  | .turnCommit inst => Sys2Proof.Machine.execTurnCommit inst s
  | .turnTimeout inst => Sys2Proof.Machine.execTurnTimeout inst s
  | .instanceClose coll remote => Sys2Proof.Machine.execInstanceClose coll remote s
  | .collectiveDeadline coll remote => Sys2Proof.Machine.execCollectiveDeadline coll remote s
  | .lateContribution coll inst j => Sys2Proof.Machine.execLateContribution coll inst j s
  | .allreduce k => Sys2Proof.Machine.execAllreduce k s
  | .reduceScatter k => Sys2Proof.Machine.execReduceScatter k s
  | .allgather k => Sys2Proof.Machine.execAllgather k s
  | .broadcast k => Sys2Proof.Machine.execBroadcast k s
  | .scatter k => Sys2Proof.Machine.execScatter k s
  | .reduceToOwner k => Sys2Proof.Machine.execReduceToOwner k s
  | .dispatch k => Sys2Proof.Machine.execDispatch k s
  | .combine k => Sys2Proof.Machine.execCombine k s
  | .barrier k => Sys2Proof.Machine.execBarrier k s
  | .shardUpdate tensor => Sys2Proof.Machine.execShardUpdate tensor s
  | .updConstellationTake => Sys2Proof.Machine.execUpdConstellationTake s
  | .journalRecord owner j => Sys2Proof.Machine.execJournalRecord owner j s
  | .journalAck tensor step => Sys2Proof.Machine.execJournalAck tensor step s
  | .jrnlWaitTimeout tensor => Sys2Proof.Machine.execJrnlWaitTimeout tensor s
  | .shardFlip tensor => Sys2Proof.Machine.execShardFlip tensor s
  | .updateRedo tensor cause => Sys2Proof.Machine.execUpdateRedo tensor cause s
  | .thrHoldFlips hold => Sys2Proof.Machine.execThrHoldFlips hold s
  | .thrEnable en => Sys2Proof.Machine.execThrEnable en s
  | .riskTick => Sys2Proof.Machine.execRiskTick s
  | .riskReport module risk => Sys2Proof.Machine.execRiskReport module risk s
  | .eclipseE0 => Sys2Proof.Machine.execEclipseE0 s
  | .eclipseResume bytes => Sys2Proof.Machine.execEclipseResume bytes s
  | .handoverCutover bytes moved => Sys2Proof.Machine.execHandoverCutover bytes moved s
  | .heartbeatSend => Sys2Proof.Machine.execHeartbeatSend s
  | .sheafHeartbeatSend => Sys2Proof.Machine.execSheafHeartbeatSend s
  | .heartbeatMiss g => Sys2Proof.Machine.execHeartbeatMiss g s
  | .suspicion sender peer => Sys2Proof.Machine.execSuspicion sender peer s
  | .linkFaultTimeout peer => Sys2Proof.Machine.execLinkFaultTimeout peer s
  | .selfFence => Sys2Proof.Machine.execSelfFence s
  | .sheafHeartbeatMiss sheaf => Sys2Proof.Machine.execSheafHeartbeatMiss sheaf s
  | .fenceNotice module arbiter cause => Sys2Proof.Machine.execFenceNotice module arbiter cause s
  | .takeover pos homes => Sys2Proof.Machine.execTakeover pos homes s
  | .restoreCheck ordered loss => Sys2Proof.Machine.execRestoreCheck ordered loss s
  | .takeoverTimeout => Sys2Proof.Machine.execTakeoverTimeout s
  | .reserveJoin => Sys2Proof.Machine.execReserveJoin s
  | .hello m => Sys2Proof.Machine.execHello m s
  | .auth m => Sys2Proof.Machine.execAuth m s
  | .authTimeout conn => Sys2Proof.Machine.execAuthTimeout conn s
  | .bye m => Sys2Proof.Machine.execBye m s
  | .sessionTimeout session => Sys2Proof.Machine.execSessionTimeout session s
  | .remoteAccessNak conn => Sys2Proof.Machine.execRemoteAccessNak conn s
  | .generate m bulk => Sys2Proof.Machine.execGenerate m bulk s
  | .cancel m via => Sys2Proof.Machine.execCancel m via s
  | .reward m via => Sys2Proof.Machine.execReward m via s
  | .sampleRead m writeOk => Sys2Proof.Machine.execSampleRead m writeOk s
  | .adapterPut m bulk => Sys2Proof.Machine.execAdapterPut m bulk s
  | .adapterDel m => Sys2Proof.Machine.execAdapterDel m s
  | .planLoad m bulk => Sys2Proof.Machine.execPlanLoad m bulk s
  | .planUnload m => Sys2Proof.Machine.execPlanUnload m s
  | .weightSet m manifest data again => Sys2Proof.Machine.execWeightSet m manifest data again s
  | .learn m via => Sys2Proof.Machine.execLearn m via s
  | .secure m via => Sys2Proof.Machine.execSecure m via s
  | .handover m via => Sys2Proof.Machine.execHandover m via s
  | .tenant m => Sys2Proof.Machine.execTenant m s
  | .calRead m writeOk => Sys2Proof.Machine.execCalRead m writeOk s
  | .calWrite m bulk powerLost => Sys2Proof.Machine.execCalWrite m bulk powerLost s
  | .fwBlock m bulk => Sys2Proof.Machine.execFwBlock m bulk s
  | .statusIdent m => Sys2Proof.Machine.execStatusIdent m s
  | .statusPolicy m => Sys2Proof.Machine.execStatusPolicy m s
  | .statusDram m => Sys2Proof.Machine.execStatusDram m s
  | .statusTurn m => Sys2Proof.Machine.execStatusTurn m s
  | .statusOwners m writeOk => Sys2Proof.Machine.execStatusOwners m writeOk s
  | .statusNightwatch m => Sys2Proof.Machine.execStatusNightwatch m s
  | .statusFallow m => Sys2Proof.Machine.execStatusFallow m s
  | .statusClearPending m => Sys2Proof.Machine.execStatusClearPending m s
  | .statusFirmware m => Sys2Proof.Machine.execStatusFirmware m s
  | .flitReceive g f => Sys2Proof.Machine.execFlitReceive g f s
  | .replayTimeout g => Sys2Proof.Machine.execReplayTimeout g s
  | .ackTick g => Sys2Proof.Machine.execAckTick g s
  | .trainingStart g => Sys2Proof.Machine.execTrainingStart g s
  | .trainingEnd g lanes farGen1 peer => Sys2Proof.Machine.execTrainingEnd g lanes farGen1 peer s
  | .laneLockLoss g lane => Sys2Proof.Machine.execLaneLockLoss g lane s
  | .ethLinkLoss p => Sys2Proof.Machine.execEthLinkLoss p s
  | .nvmeTimeout port link => Sys2Proof.Machine.execNvmeTimeout port link s
  | .i3cDaa setdasa addr => Sys2Proof.Machine.execI3cDaa setdasa addr s
  | .pldmRequest smbus r => Sys2Proof.Machine.execPldmRequest smbus r s
  | .pldmActivateFirmware => Sys2Proof.Machine.execPldmActivateFirmware s
  | .pldmSetTai sec => Sys2Proof.Machine.execPldmSetTai sec s
  | .beaconRead addr => Sys2Proof.Machine.execBeaconRead addr s
  | .beaconRefresh => Sys2Proof.Machine.execBeaconRefresh s
  | .moduleEnAssert env => Sys2Proof.Machine.execModuleEnAssert env s
  | .serviceEntry ms => Sys2Proof.Machine.execServiceEntry ms s
  | .noDataPortTimeout => Sys2Proof.Machine.execNoDataPortTimeout s
  | .moduleEnDeassert => Sys2Proof.Machine.execModuleEnDeassert s
  | .warmRestart env => Sys2Proof.Machine.execWarmRestart env s
  | .failedTimeout => Sys2Proof.Machine.execFailedTimeout s
  | .confirmCheck => Sys2Proof.Machine.execConfirmCheck s
  | .confirmDeadline => Sys2Proof.Machine.execConfirmDeadline s
  | .ppsPulse => Sys2Proof.Machine.execPpsPulse s
  | .ppsHoldover => Sys2Proof.Machine.execPpsHoldover s
  | .pstArm => Sys2Proof.Machine.execPstArm s
  | .taiSetFallback => Sys2Proof.Machine.execTaiSetFallback s
  | .pstNowRead => Sys2Proof.Machine.execPstNowRead s
  | .repeatFlush => Sys2Proof.Machine.execRepeatFlush s
  | .almSpiRead addr n => Sys2Proof.Machine.execAlmSpiRead addr n s
  | .almWindowWrite addr val => Sys2Proof.Machine.execAlmWindowWrite addr val s
  | .inputFailure mv => Sys2Proof.Machine.execInputFailure mv s
  | .railSwitchOff => Sys2Proof.Machine.execRailSwitchOff s
  | .capTick watts ca => Sys2Proof.Machine.execCapTick watts ca s
  | .dieTempSample c reading => Sys2Proof.Machine.execDieTempSample c reading s
  | .thermalShutdown => Sys2Proof.Machine.execThermalShutdown s
  | .aclkStep c => Sys2Proof.Machine.execAclkStep c s
  | .pwrAclkCfgWrite c val => Sys2Proof.Machine.execPwrAclkCfgWrite c val s
  | .connectionRequest conn supported => Sys2Proof.Machine.execConnectionRequest conn supported s
  | .connectionLoss conn unsent => Sys2Proof.Machine.execConnectionLoss conn unsent s
  | .fencedTerminalExpiry session => Sys2Proof.Machine.execFencedTerminalExpiry session s
  | .ethLinkUp p => Sys2Proof.Machine.execEthLinkUp p s
  | .nvmeDriveRemoval port link => Sys2Proof.Machine.execNvmeDriveRemoval port link s
  | .nvmeResetTimeout port => Sys2Proof.Machine.execNvmeResetTimeout port s
  | .nvmeCopyDone => Sys2Proof.Machine.execNvmeCopyDone s
  | .regulatorWarning mv oc phase => Sys2Proof.Machine.execRegulatorWarning mv oc phase s
  | .regulatorTrip => Sys2Proof.Machine.execRegulatorTrip s
  | .firmwareTrap core mcause mepc mtval => Sys2Proof.Machine.execFirmwareTrap core mcause mepc mtval s
  | .securedRefresh owner tensor copy => Sys2Proof.Machine.execSecuredRefresh owner tensor copy s
  | .eclipseRepeat => Sys2Proof.Machine.execEclipseRepeat s
  | .mctpSetEndpointId smbus eid => Sys2Proof.Machine.execMctpSetEndpointId smbus eid s
  | .pldmFirmwareData offset data len => Sys2Proof.Machine.execPldmFirmwareData offset data len s

end Sys2Proof.Machine
end

