-- ==== Sys2Proof/Safety.lean ====
section
/-! DEFINITION. The words in which claims speak of a run: what a hart, an engine or a client must be for a command to have
its own effect, what stays as it was, and the conditions that every step keeps. -/

namespace Sys2Proof.Machine

/-! ### What stays as it was -/

/-- Every byte of the local physical map and every poison mark is as before. -/
def SameMap (s t : State) : Prop := (∀ a, t.byte a = s.byte a) ∧ t.poison = s.poison

/-- Every byte of the map outside `n` bytes from an address is as before. -/
def SameMapBut (s t : State) (a n : Nat) : Prop := ∀ x, (x < a ∨ a + n ≤ x) → t.byte x = s.byte x

/-- Every tally but one is as before. -/
def SameTalliesBut (s t : State) (i : Nat) : Prop := ∀ j, j ≠ i → t.tally j = s.tally j

/-- Every register but those at the offsets listed is as before. -/
def SameRegsBut (s t : State) (l : List Nat) : Prop :=
  ∀ id i ix, regOff id i ix ∉ l → t.reg id i ix = s.reg id i ix

/-- Every hart but one is as before. -/
def SameHartsBut (s t : State) (h : Nat) : Prop := ∀ j, j ≠ h → t.hart j = s.hart j

/-! ### Harts -/

/-- The device has power, the hart's core is not fallow and the hart does not hold. -/
abbrev HartReady (s : State) (h : Nat) : Prop := s.on = true ∧ hartRuns s h = true

/-- An integer register of a hart: x0 reads 0. -/
def HartSt.gpr (h : HartSt) (n : Nat) : DWord := if n = 0 then 0 else SMap.get 0 h.x n

/-- A hart has executed an instruction that answers `v` in `rd`: its pc moved past it, `rd` holds the value unless it is
x0, every other register, the mode, the trap registers and every other hart are as before. -/
def HartAdvanced (s t : State) (h rd : Nat) (v : DWord) : Prop :=
  (∀ n, (t.hart h).gpr n = if n = rd ∧ n ≠ 0 then v else (s.hart h).gpr n)
  ∧ (t.hart h).pc = (s.hart h).pc + 4 ∧ (t.hart h).hold = .running ∧ (t.hart h).mode = (s.hart h).mode
  ∧ (t.hart h).f = (s.hart h).f ∧ (t.hart h).fcsr = (s.hart h).fcsr ∧ (t.hart h).pmp = (s.hart h).pmp ∧ (t.hart h).mcause = (s.hart h).mcause
  ∧ (t.hart h).mepc = (s.hart h).mepc ∧ (t.hart h).mtval = (s.hart h).mtval ∧ SameHartsBut s t h

/-- A hart's private memories and reservation are as before. -/
def SamePrivate (s t : State) (h : Nat) : Prop :=
  (t.hart h).imem = (s.hart h).imem ∧ (t.hart h).dmem = (s.hart h).dmem ∧ (t.hart h).resv = (s.hart h).resv

/-- A hart waits: it holds, and its registers, its pc and every other hart are as before. -/
def HartWaits (s t : State) (h : Nat) (why : HartHold) : Prop :=
  t.hart h = { s.hart h with hold := why } ∧ SameHartsBut s t h

/-! ### Engines -/

/-- The tables of every core have the sizes that the spec gives them: four accumulation groups, eight lookup tables, and
four stream units of four active and four persistent slots. -/
def Core.shaped (c : Core) : Bool :=
  c.mxe.groups.length == 4 && c.vxe.tables.length == 8 && c.str.length == 4
    && c.str.all fun x => x.active.length == 4 && x.pers.length == 4

/-- Every core that the state lists is shaped. -/
def State.shaped (s : State) : Bool := s.cores.all fun p => p.2.shaped

/-- The device has power and a core is not fallow. -/
abbrev CoreReady (s : State) (k : Nat) : Prop := s.on = true ∧ s.coreFallow k = false

/-- A vector instruction stands at the head of its queue, and the engine may start it and complete it (R135, R136). -/
abbrev VecReady (s : State) (k : CoreIx) (i : TileIns) (rest : List TileIns) : Prop :=
  CoreReady s k ∧ vxeMayStart s k = true ∧ (s.vxe k).queue = i :: rest ∧ (s.vxe k).waiters = []
    ∧ cplFull (s.vxe k).head (s.vxe k).tail = false ∧ Memory.wf 0 s.mem = true

/-- No persistent slot of a stream unit holds a re-arm (R165). -/
abbrev NoHeldRearm (s : State) (k u : Nat) : Prop := ∀ x ∈ (s.str k u).pers, x.bind (·.rearm) = none

/-- A stream descriptor stands at the head of its unit's queue and may start, no run of its opcode stands, no re-arm is
held, and the unit can complete it (R154, R155, R157). -/
abbrev StrReady (s : State) (k : CoreIx) (u : UnitIx) (i : TileIns) (rest : List TileIns) : Prop :=
  CoreReady s k ∧ s.shaped = true ∧ (s.str k u).queue = i :: rest ∧ (s.str k u).waiters = []
    ∧ strMayStart s k u (strD i.desc) i.issue = true ∧ slotsOf s k u (strD i.desc).opcode = [] ∧ NoHeldRearm s k u
    ∧ Memory.wf 0 s.mem = true

/-- The stream commands with the OPCODE that each runs (R152). -/
def strCommands : List (Nat × (CoreIx → UnitIx → Instr)) := [(1, .copy), (2, .ring), (3, .egress), (4, .atomic)]

/-- The vector commands with the OPCODE that each runs (R118). -/
def vecCommands : List (Nat × (CoreIx → Instr)) :=
  [(0x01, .add), (0x02, .sub), (0x03, .mul), (0x04, .fma), (0x05, .min), (0x06, .max), (0x07, .abs), (0x08, .cvt),
    (0x09, .cmp), (0x0A, .div), (0x0B, .sqrt), (0x0C, .rsqrt), (0x0D, .rcp), (0x0E, .exp), (0x0F, .log), (0x10, .lut),
    (0x11, .lutload), (0x20, .redsum), (0x21, .redmax), (0x22, .redmin), (0x23, .rmsinv), (0x30, .smaxRow),
    (0x31, .smaxRescale), (0x32, .smaxMerge), (0x33, .smaxFinal), (0x40, .sample)]

/-- The join commands with the OPCODE that each takes (R345). -/
def joinCommands : List (Nat × (CoreIx → Instr)) :=
  [(1, .allreduce), (2, .reduceScatter), (3, .allgather), (4, .broadcast), (5, .scatter), (6, .reduceToOwner),
    (7, .dispatch), (8, .combine), (9, .barrier)]

/-- The number of joins that the router has taken from a core, and the descriptor of the next one (R344). -/
def joinsTaken (s : State) (k : Nat) : Nat := SMap.get 0 s.router.taken k
def nextJoin (s : State) (k : Nat) : List Byte := s.bytes (joinArea k + 64 * (joinsTaken s k % 16)) 64

/-- The state once the router has taken the next join of a core. -/
def tookJoin (s : State) (k : Nat) : State :=
  { s with router := { s.router with taken := SMap.set s.router.taken k (joinsTaken s k + 1) } }

/-- A core's join tally has passed the joins taken, and the module joins (R344, R406). -/
abbrev JoinWaits (s : State) (k : CoreIx) : Prop :=
  s.on = true ∧ s.dev.mode ≠ .failed ∧ Memory.wf 0 s.mem = true
    ∧ 0 < (s.tally (1024 * (k.val / 8) + 1016 + k.val % 8) - BitVec.ofNat 32 (joinsTaken s k)).toInt

/-- The descriptors of an open instance agree, and no member of it is fenced. -/
abbrev InstanceAgrees (s : State) (p : CollPlan) (h : Contrib) : Prop :=
  (collOf s p.id).isOpen = true ∧ (collOf s p.id).cur.head? = some h
    ∧ (∀ x ∈ (collOf s p.id).cur, mismatch (joinD h.desc) (joinD x.desc) = false)
    ∧ (∀ m, m < p.members.length → memberFenced s p m = false) ∧ waitsForPage s p (collOf s p.id) = none
    ∧ rootFenced s p (collOf s p.id) = false

/-! ### Registers -/

/-- A write of the register acts on its block beside its fields. -/
def writeActs : RegId → Bool
  | .mxeCplHead | .vxeCplHead | .strCplHead | .mxeCtrl | .vxeCtrl | .strCtrl | .strResume | .xltInval | .drlDigCtrl
  | .cluScCfg | .tlyCtrl | .tlyValue | .drmMapout | .cluShadow | .thrShadow | .pstSetCtrl | .pwrAclk => true
  | _ => false

/-- R4, R30, R507, R508: what an access that is turned away does. Nothing changes but its record; a read drives 0. Where the
Almanac writes and has not recorded the same combination in this second, the record stands in the event ring with the
next SEQ, the access's time, address, width and data, and its checksum. -/
def TurnedAway (s t : State) (addr width : Nat) (wr : Bool) (val : Nat) : Prop :=
  SameRegsBut s t [regOff .almMerged] ∧ SameMap s t ∧ t.cores = s.cores ∧ t.tallies = s.tallies
    ∧ t.out = (if wr then s.out else .bus 0 :: s.out)
    ∧ (s.alm.ready = true → s.alm.stopped = false → s.alm.merges = [] → Memory.wf 0 s.alm.mram = true →
        t.alm.next = s.alm.next + 1
        ∧ ∀ r, r = Memory.read 0 t.alm.mram (0x080000 + 64 * (s.alm.next.toNat % 131072)) 64 →
            fieldAt r 0 4 = s.alm.next.toNat ∧ fieldAt r 4 2 = 0x0001 ∧ fieldAt r 8 8 = s.pst.now % 2^64
              ∧ fieldAt r 24 8 = addr ∧ fieldAt r 32 1 = width % 256 ∧ fieldAt r 33 4 = (if wr then val % 2^32 else 0)
              ∧ fieldAt r 60 4 = crc32c (r.take 60))

/-! ### Clients -/

/-- A message has left on a connection: its bytes, with the connection's version and next sequence number, are out; on a
connection that is not open there is none (R431). -/
def Sent (s t : State) (c : Nat) (r : Reply) : Prop :=
  ∀ x, SMap.find s.service.conns c = some x →
    .message c (msgBytes x.version r.ty (statusCode r.status) r.detail r.reqId s.pst.now x.sent.toNat r.body) ∈ t.out

/-- A message has gone toward a session: out on its connection, or into the output ring of a session without one
(R428). -/
def Told (s t : State) (id : DWord) (r : Reply) : Prop :=
  ∀ x, session? s id = some x → match x.conn with
    | some c => Sent s t c r
    | none => ∃ y, session? t id = some y ∧ r ∈ y.ring

/-- A message arrives on an open connection and passes every check of R432. -/
abbrev Accepted (s : State) (t : MsgType) (m : Msg) (x : Conn) : Prop :=
  s.on = true ∧ SMap.find s.service.conns m.conn = some x ∧ msgCheck s t m x = none

/-- A completion has left on the connection that its request came on (R431, R432). -/
def Answered (s t : State) (m : Msg) (x : Conn) (ty : MsgType) (st : Status) (detail : Nat) (body : List Byte) : Prop :=
  ∃ n, .message m.conn (msgBytes x.version ty.code (statusCode st) detail m.requestId s.pst.now n body) ∈ t.out

/-- A completion waits for its condition (R435). -/
def Waits (t : State) (m : Msg) (ty : MsgType) (why : Owed) : Prop :=
  ∃ w ∈ t.service.waiting, w.conn = m.conn ∧ w.ty = ty.code ∧ w.reqId = m.requestId ∧ w.why = why

/-- The messages, each with its row of the type table (R435). -/
def msgCommands : List (MsgType × (Msg → Instr)) :=
  [(tHello, .hello), (tAuth, .auth), (tBye, .bye), (tGenerate, fun m => .generate m none), (tCancel, fun m => .cancel m (.client none)),
    (tReward, fun m => .reward m (.client none)), (tSampleRead, fun m => .sampleRead m true), (tAdapterPut, fun m => .adapterPut m none),
    (tAdapterDel, .adapterDel), (tPlan, fun m => .planLoad m none), (tPlan, .planUnload),
    (tWeightSet, fun m => .weightSet m none none none), (tLearn, fun m => .learn m (.client none)), (tSecure, fun m => .secure m (.client none)),
    (tHandover, fun m => .handover m (.client none)), (tTenant, .tenant), (tCalRead, fun m => .calRead m true), (tCalWrite, fun m => .calWrite m none false),
    (tFwBlock, fun m => .fwBlock m none), (tStatus, .statusIdent), (tStatus, .statusPolicy), (tStatus, .statusDram),
    (tStatus, .statusTurn), (tStatus, fun m => .statusOwners m true), (tStatus, .statusNightwatch),
    (tStatus, .statusFallow), (tStatus, .statusClearPending), (tStatus, .statusFirmware)]

/-! ### Conditions that every step keeps -/

/-- The memories of the block are in their canonical form: the map, the Almanac's MRAM and both flashes. -/
def State.wf (s : State) : Bool :=
  Memory.wf 0 s.mem && Memory.wf 0 s.alm.mram && Memory.wf 0xFF s.dev.flashA && Memory.wf 0xFF s.dev.flashB

end Sys2Proof.Machine
end

