-- ==== Sys2Proof/Certificates/Slice0/Obligations.lean ====
section
/-! DEFINITION. The statements for the provers. -/

open Sys2Proof Sys2Proof.Machine

/-! ### The whole block -/

/-- A step takes the command at the front of the queue and has exactly its effect on the block with the rest of the
queue; with no command waiting, one PCLK tick passes, which is the model's choice (log entry 3). -/
def Obligations.StepTakesFrontCommand : Prop :=
  (∀ (s : State) (c : Instr) (rest : List Instr),
    step { s with pending := c :: rest } = exec c { s with pending := rest })
  ∧ (∀ s : State, s.pending = [] → step s = .next s.tick)
  ∧ ∀ s : State, s.pending = [] → s.on = true → s.pst.slew = 0 →
      s.tick = { s with pst := { s.pst with now := s.pst.now + 1, up := s.pst.up + 1 } }

/-- A command's effect leaves the queue of waiting commands as it is. -/
def Obligations.ExecLeavesTheQueue : Prop :=
  ∀ (c : Instr) (s t : State), exec c s = .next t → t.pending = s.pending

/-- No command refuses, and the one fault is an input voltage beyond R528's absolute maximum ratings, where the spec
gives no behaviour; every other command completes in every state. It rests on the model's choices of log entry 16. -/
def Obligations.EveryCommandCompletes : Prop :=
  (∀ (c : Instr) (s : State), (∀ mv, c ≠ .inputFailure mv) → (∀ mv oc ph, c ≠ .regulatorWarning mv oc ph) →
    ∃ t, exec c s = .next t)
  ∧ ∀ (s : State) (mv : Int) (oc phase : Bool),
      (-500 ≤ mv → mv ≤ 50000 → (∃ t, exec (.inputFailure mv) s = .next t)
        ∧ ∃ t, exec (.regulatorWarning mv oc phase) s = .next t)
      ∧ ((mv < -500 ∨ 50000 < mv) → exec (.inputFailure mv) s = .fault .beyondRatings
        ∧ exec (.regulatorWarning mv oc phase) s = .fault .beyondRatings)

/-- R478, R512: in OFF a command changes nothing, but for MODULE_EN, a read at the Almanac pins, and a beacon cycle,
in which no bit is driven and the pull-downs read 0. It rests on the model's choices of log entry 10. -/
def Obligations.OffIsInert : Prop :=
  ∀ (c : Instr) (s t : State), s.dev.mode = .off → exec c s = .next t →
    (∀ e, c ≠ .moduleEnAssert e) → c ≠ .moduleEnDeassert →
    t = { s with out := t.out } ∧ (t.out = s.out ∨ (∃ a, c = .beaconRead a ∧ t.out = .beacon 0 :: s.out)
      ∨ ∃ a n l, c = .almSpiRead a n ∧ t.out = .spi l :: s.out)

/-- Every step keeps the memories of the block in their canonical form, from every state in which they are. -/
def Obligations.StepKeepsCanonicalMemories : Prop :=
  ∀ s t : State, s.wf = true → step s = .next t → t.wf = true

/-- R69, R125, R155: every step keeps the tables of each core at the sizes that the spec gives them. -/
def Obligations.StepKeepsCoreTables : Prop :=
  ∀ s t : State, s.shaped = true → step s = .next t → t.shaped = true

/-- R492: no step lowers the security version that the fuses hold, and none changes the serial number. -/
def Obligations.FusesNeverFall : Prop :=
  ∀ s t : State, step s = .next t → s.dev.fuseSvn ≤ t.dev.fuseSvn ∧ t.dev.serial = s.dev.serial

/-- R8, R476: right after reset the block is in BOOT with no command waiting, nothing in memory, no plan, every
register at the value that its table gives, every tally 0, and the conditions that every step keeps hold. The contents
of memory and of the harts are the model's choice (log entries 6 and 7). -/
def Obligations.ResetState : Prop :=
  State.reset.dev.mode = .boot ∧ State.reset.dev.started = false ∧ State.reset.pending = [] ∧ State.reset.plan = none
    ∧ (∀ id i ix, State.reset.reg id i ix = RegRef.reset ⟨id, i, ix⟩)
    ∧ (∀ a, State.reset.byte a = 0) ∧ State.reset.poison = [] ∧ (∀ i, State.reset.tally i = 0)
    ∧ State.reset.reg .mxeSeedLo 5 = 0 ∧ State.reset.fenced = [] ∧ State.reset.pst.state = .free
    ∧ State.reset.wf = true ∧ State.reset.shaped = true

/-! ### Harts and tallies (chapters 6 and 7) -/

/-- R188, R191: TLY.ADD and TLY.SET on a tally of the module: the tally takes its new value, the previous one returns
zero-extended, and no other tally, register or byte changes. Toward a live module of the job the operation leaves, no
tally of this module changes and 0 returns. -/
def Obligations.TallyAddAndSetComplete : Prop :=
  ∀ (s : State) (h : Hart) (w : Xkvl) (rs1 rs2 : DWord),
    HartReady s h → tlyIllegal w = false →
    (refBad s rs1 (isJoin h rs1 rs2) = false → refRemote s rs1 = false →
      ∃ t, exec (.tlyAdd h w rs1 rs2) s = .next t
        ∧ t.tally (rs1.toNat % 2^14) = s.tally (rs1.toNat % 2^14) + rs2.setWidth 32
        ∧ SameTalliesBut s t (rs1.toNat % 2^14)
        ∧ HartAdvanced s t h w.rd ((s.tally (rs1.toNat % 2^14)).setWidth 64)
        ∧ SamePrivate s t h ∧ SameMap s t ∧ t.regs = s.regs ∧ t.cores = s.cores)
    ∧ (refBad s rs1 false = false → refRemote s rs1 = false →
      ∃ t, exec (.tlySet h w rs1 rs2) s = .next t
        ∧ t.tally (rs1.toNat % 2^14) = rs2.setWidth 32
        ∧ SameTalliesBut s t (rs1.toNat % 2^14)
        ∧ HartAdvanced s t h w.rd ((s.tally (rs1.toNat % 2^14)).setWidth 64)
        ∧ SamePrivate s t h ∧ SameMap s t ∧ t.regs = s.regs ∧ t.cores = s.cores)
    ∧ (refBad s rs1 false = false → refRemote s rs1 = true → s.fenced.contains (bits rs1.toNat 25 14) = false →
        s.dev.mode ≠ .failed →
      (∃ t, exec (.tlyAdd h w rs1 rs2) s = .next t ∧ t.tallies = s.tallies ∧ HartAdvanced s t h w.rd 0
        ∧ t.out = .remoteTally (bits rs1.toNat 25 14) .add (rs1.toNat % 2^14) (rs2.setWidth 32) h :: s.out)
      ∧ ∃ t, exec (.tlySet h w rs1 rs2) s = .next t ∧ t.tallies = s.tallies ∧ HartAdvanced s t h w.rd 0
        ∧ t.out = .remoteTally (bits rs1.toNat 25 14) .set (rs1.toNat % 2^14) (rs2.setWidth 32) h :: s.out)

/-- R143, R188, R189: TLY.WAIT on a tally of the module that has reached its threshold returns its value at once; on
one that has not, the hart holds and the wait stands, with no change of a tally. TLY.POLL returns 1 or 0 at once.
R189, R190, R193: a wait that its tally has satisfied resumes its hart with the value that satisfied it, a wait on
another module with the value reported, and a polling wait with the value that the poll finds; the wait is over. R192,
R193: a WAIT of another module that is polled here is reported by its poll, and is over. It rests on the model's
choices of log entry 31. -/
def Obligations.TallyWaitsComplete : Prop :=
  (∀ (s : State) (h : Hart) (x : Xkvl) (rs1 rs2 : DWord),
      HartReady s h → tlyIllegal x = false → refBad s rs1 false = false → refRemote s rs1 = false →
      (0 ≤ (s.tally (rs1.toNat % 2^14) - rs2.setWidth 32).toInt →
        ∃ t, exec (.tlyWait h x rs1 rs2) s = .next t
          ∧ HartAdvanced s t h x.rd ((s.tally (rs1.toNat % 2^14)).setWidth 64)
          ∧ t.tallies = s.tallies ∧ t.waits = s.waits ∧ SameMap s t ∧ t.regs = s.regs)
      ∧ ((s.tally (rs1.toNat % 2^14) - rs2.setWidth 32).toInt < 0 →
        ∃ t w, exec (.tlyWait h x rs1 rs2) s = .next t
          ∧ HartWaits s t h .tally ∧ t.waits = s.waits ++ [w] ∧ w.hart = h.val ∧ w.tally = rs1.toNat % 2^14
          ∧ w.threshold = rs2.setWidth 32 ∧ w.rd = x.rd.val ∧ w.got = none
          ∧ (w.watch = true ↔ s.watchUsed (rs1.toNat % 2^14 / 1024) < 256)
          ∧ t.tallies = s.tallies ∧ SameMap s t)
      ∧ (∃ t, exec (.tlyPoll h x rs1 rs2) s = .next t
          ∧ HartAdvanced s t h x.rd (if 0 ≤ (s.tally (rs1.toNat % 2^14) - rs2.setWidth 32).toInt then 1 else 0)
          ∧ t.tallies = s.tallies ∧ t.waits = s.waits ∧ SameMap s t ∧ t.regs = s.regs))
  ∧ ((∀ (s : State) (h : Hart) (reported : Option Word) (w : TallyWait), s.on = true →
      s.waits.find? (fun w => w.hart = h.val) = some w →
      (∀ v, w.remote = none → w.got = some v →
        ∃ t, exec (.tlyWaitSatisfied h reported) s = .next t ∧ HartAdvanced s t h w.rd (v.setWidth 64)
          ∧ (∀ x ∈ t.waits, x.hart ≠ h.val) ∧ t.tallies = s.tallies ∧ SameMap s t)
      ∧ (∀ v, w.remote.isSome = true → reported = some v → 0 ≤ (v - w.threshold).toInt →
        ∃ t, exec (.tlyWaitSatisfied h reported) s = .next t ∧ HartAdvanced s t h w.rd (v.setWidth 64)
          ∧ (∀ x ∈ t.waits, x.hart ≠ h.val) ∧ t.tallies = s.tallies ∧ SameMap s t)
      ∧ (w.watch = false → 0 ≤ (s.tally w.tally - w.threshold).toInt →
        ∃ t, exec (.tallyPollTick (.hart h)) s = .next t ∧ HartAdvanced s t h w.rd ((s.tally w.tally).setWidth 64)
          ∧ (∀ x ∈ t.waits, x.hart ≠ h.val) ∧ t.tallies = s.tallies ∧ SameMap s t))
    ∧ ∀ (s : State) (src : ModuleId) (tag : Nat) (w : RemoteWatch), s.on = true → s.dev.mode ≠ .failed →
      s.watches.find? (fun w => w.src = src.toNat ∧ w.tag = tag ∧ w.polled) = some w →
      0 ≤ (s.tally w.tally - w.threshold).toInt →
      ∃ t, exec (.tallyPollTick (.peer src tag)) s = .next t ∧ t.out = .tallyReport src.toNat tag (s.tally w.tally) :: s.out
        ∧ (∀ x ∈ t.watches, ¬(x.src = src.toNat ∧ x.tag = tag ∧ x.polled = true)) ∧ t.tallies = s.tallies ∧ t.harts = s.harts)

/-- R191 to R194: an operation from a live module acts at the tally as it would here: ADD and SET write it, POLL and a
satisfied WAIT report, and one from a fenced module changes no tally and is counted. A write of TLY_VALUE is a SET.
R194: TLY_CTRL.CLEAR of a cluster that no job owns sets each of its tallies to 0 and leaves every other tally; the
cluster's local waits and remote watches are over. -/
def Obligations.RemoteTallyAndClearComplete : Prop :=
  (∀ (s : State) (src : ModuleId) (i : BitVec 14) (v : Word) (tag : Nat), s.on = true →
    (s.fenced.contains src.toNat = false → s.dev.mode ≠ .failed →
      (∃ t, exec (.remoteTallyArrive src .add i v tag) s = .next t ∧ t.tally i.toNat = s.tally i.toNat + v
        ∧ SameTalliesBut s t i.toNat ∧ SameMap s t ∧ t.harts = s.harts ∧ t.regs = s.regs)
      ∧ (∃ t, exec (.remoteTallyArrive src .set i v tag) s = .next t ∧ t.tally i.toNat = v
        ∧ SameTalliesBut s t i.toNat ∧ SameMap s t ∧ t.harts = s.harts ∧ t.regs = s.regs)
      ∧ (∃ t, exec (.remoteTallyArrive src .poll i v tag) s = .next t ∧ t.tallies = s.tallies
        ∧ t.out = .tallyReport src.toNat tag (if 0 ≤ (s.tally i.toNat - v).toInt then 1 else 0) :: s.out)
      ∧ (0 ≤ (s.tally i.toNat - v).toInt →
        ∃ t, exec (.remoteTallyArrive src .wait i v tag) s = .next t ∧ t.tallies = s.tallies
          ∧ t.watches = s.watches ∧ t.out = .tallyReport src.toNat tag (s.tally i.toNat) :: s.out))
    ∧ (s.fenced.contains src.toNat = true → ∀ op,
      ∃ t, exec (.remoteTallyArrive src op i v tag) s = .next t ∧ t.tallies = s.tallies ∧ t.watches = s.watches
        ∧ t.out = s.out
        ∧ t.reg .tlyRemoteDiscard (i.toNat / 1024) = (s.reg .tlyRemoteDiscard (i.toNat / 1024)).incSat 1))
  ∧ (∀ (s : State) (i : BitVec 14) (v : Word), s.on = true →
    ∃ t, exec (.tlyValueWrite i v) s = .next t ∧ t.tally i.toNat = v ∧ SameTalliesBut s t i.toNat ∧ SameMap s t
      ∧ t.harts = s.harts ∧ t.regs = s.regs)
  ∧ (∀ (s : State) (c : ClusterIx), s.on = true → s.jobOwns c = false →
      ∃ t, exec (.tlyClear c) s = .next t
        ∧ (∀ i, i / 1024 = c.val → t.tally i = 0) ∧ (∀ i, i / 1024 ≠ c.val → t.tally i = s.tally i)
        ∧ (∀ w ∈ t.watches, w.tally / 1024 ≠ c.val)
        ∧ (∀ w ∈ t.waits, w.remote = none → w.tally / 1024 ≠ c.val)
        ∧ SameMap s t)

/-- R183, R186: KFENCE with a KIND and a scope of R182, FENCE and FENCE.TSO complete: the hart goes on, and nothing
else of the block changes. R144: KQ.PUSH of an aligned descriptor into a queue with room: the descriptor stands at the
queue's end with the next SEQ, and the hart goes on with that SEQ; only the control core pushes tile instructions.
R163: STR.RESUME of the token of a halted slot lets that slot go on; every other offset is ignored and recorded. R164,
R165: a STR.REARM of an idle held descriptor with RETIRE frees its slot. The hart goes on in each case. -/
def Obligations.HartFencesAndIssueComplete : Prop :=
  (∀ (s : State) (h : Hart), HartReady s h →
      (∀ w : Xkvl, bits w.f7.toNat 1 0 ≠ 0 → bits w.f7.toNat 4 2 < 5 → bits w.f7.toNat 6 5 = 0 →
        ∃ t, exec (.kfence h w) s = .next t ∧ HartAdvanced s t h 0 0 ∧ SamePrivate s t h
          ∧ t = { s with harts := t.harts })
      ∧ (∀ tso, ∃ t, exec (.riscvFence h tso) s = .next t ∧ HartAdvanced s t h 0 0 ∧ SamePrivate s t h
          ∧ t = { s with harts := t.harts }))
  ∧ (∀ (s : State) (h : Hart) (w : Xkvl) (rs1 : DWord) (b : List Byte), HartReady s h → s.shaped = true →
      (w.f7.toNat = 0 → h.val % 4 = 0 → rs1.toNat % 32 = 0 → hartBytes s h rs1.toNat 32 = some b →
        (s.mxe (h / 4)).queue.length < 8 → (s.mxe (h / 4)).waiters = [] →
        ∃ t, exec (.kqPush h w rs1) s = .next t ∧ HartAdvanced s t h w.rd ((s.mxe (h / 4)).seq.setWidth 64)
          ∧ (t.mxe (h / 4)).queue = (s.mxe (h / 4)).queue ++ [⟨b, (s.mxe (h / 4)).seq, mxeIdle (s.mxe (h / 4)), s.issue⟩]
          ∧ (t.mxe (h / 4)).seq = (s.mxe (h / 4)).seq + 1 ∧ SameMap s t)
      ∧ (w.f7.toNat = 1 → rs1.toNat % 32 = 0 → hartBytes s h rs1.toNat 32 = some b →
        (s.vxe (h / 4)).queue.length < 8 → (s.vxe (h / 4)).waiters = [] →
        ∃ t, exec (.kqPush h w rs1) s = .next t ∧ HartAdvanced s t h w.rd ((s.vxe (h / 4)).seq.setWidth 64)
          ∧ (t.vxe (h / 4)).queue = (s.vxe (h / 4)).queue ++ [⟨b, (s.vxe (h / 4)).seq, vxeIdle (s.vxe (h / 4)), s.issue⟩]
          ∧ (t.vxe (h / 4)).seq = (s.vxe (h / 4)).seq + 1 ∧ SameMap s t)
      ∧ (∀ u : UnitIx, w.f7.toNat = 4 + u.val → rs1.toNat % 64 = 0 → hartBytes s h rs1.toNat 64 = some b →
        (s.str (h / 4) u).queue.length < 16 → (s.str (h / 4) u).waiters = [] →
        ∃ t, exec (.kqPush h w rs1) s = .next t
          ∧ HartAdvanced s t h w.rd ((s.str (h / 4) u).seq.setWidth 64)
          ∧ (t.str (h / 4) u).queue = (s.str (h / 4) u).queue ++ [⟨b, (s.str (h / 4) u).seq, false, s.issue⟩]
          ∧ (t.str (h / 4) u).seq = (s.str (h / 4) u).seq + 1 ∧ SameMap s t))
  ∧ (∀ (s : State) (h : Hart) (w : Xkvl) (rs1 : DWord) (u : UnitIx), HartReady s h → w.f7.toNat = u.val →
    (∀ i, rs1.toNat < 2^23 → rs1.toNat % 64 = 0 → haltedAt s (h / 4) u rs1.toNat = some i →
      ∃ t, exec (.strResume h w rs1) s = .next t ∧ t = hartGo (strUnhalt s (h / 4) u i false) h w.rd 0)
    ∧ ((2^23 ≤ rs1.toNat ∨ rs1.toNat % 64 ≠ 0 ∨ haltedAt s (h / 4) u rs1.toNat = none) →
      ∃ t, exec (.strResume h w rs1) s = .next t ∧ HartAdvanced s t h w.rd 0 ∧ t.cores = s.cores ∧ SameMap s t))
  ∧ (∀ (s : State) (h : Hart) (w : Xkvl) (rs1 rs2 : DWord) (u : UnitIx) (base : List Byte) (i : Nat) (e : PersSlot),
    HartReady s h → w.f7.toNat = u.val → s.shaped = true → rs2.toNat % 32 = 0 → hartBytes s h rs2.toNat 32 = some base →
    (s.str (h / 4) u).pers.findIdx? (fun e => match e with
      | some e => decide (e.seq.toNat = rs1.toNat)
      | none => false) = some i →
    (s.str (h / 4) u).pers.getD i none = some e → e.busy = false →
    NoHeldRearm s (h / 4) u →
    fieldAt base 16 4 = 1 → zeroAt base 20 12 = true →
    ∃ t, exec (.strRearm h w rs1 rs2) s = .next t ∧ HartAdvanced s t h w.rd 0
      ∧ (t.str (h / 4) u).pers.getD i none = none ∧ SameMap s t)

/-! ### Hart memory and instructions that push (chapter 6) -/

/-- R139, R140: a load of the hart's private memories or of a clean line of the local physical map returns its bytes,
extended as it asks, and stores nothing. R139, R140, R207: a store to the hart's private data memory writes its bytes
there and none elsewhere; an aligned store to the local physical map writes its bytes and leaves every other byte and
every other hart as they were. It rests on the model's choices of log entries 23, 26. -/
def Obligations.HartLoadsAndStoresComplete : Prop :=
  (∀ (s : State) (h : Hart) (n : Fin 4) (signed : Bool) (addr val : DWord) (rd : Fin 32), HartReady s h →
      (∀ off, hartTarget s h addr.toNat (2^n.val) [.read] = .imem off →
        ∃ t, exec (.hartAccess h (.load n signed) addr val rd) s = .next t
          ∧ HartAdvanced s t h rd (loadValue (2^n.val) signed (Memory.read 0 (s.hart h).imem off (2^n.val)))
          ∧ SamePrivate s t h ∧ SameMap s t)
      ∧ (∀ off, hartTarget s h addr.toNat (2^n.val) [.read] = .dmem off →
        ∃ t, exec (.hartAccess h (.load n signed) addr val rd) s = .next t
          ∧ HartAdvanced s t h rd (loadValue (2^n.val) signed (Memory.read 0 (s.hart h).dmem off (2^n.val)))
          ∧ SamePrivate s t h ∧ SameMap s t)
      ∧ (∀ a, hartTarget s h addr.toNat (2^n.val) [.read] = .here a → isRegs a = false → s.rangePoison a (2^n.val) = false →
        ∃ t, exec (.hartAccess h (.load n signed) addr val rd) s = .next t
          ∧ HartAdvanced s t h rd (loadValue (2^n.val) signed (s.bytes a (2^n.val)))
          ∧ SamePrivate s t h ∧ SameMap s t))
  ∧ (∀ (s : State) (h : Hart) (n : Fin 4) (addr val : DWord) (rd : Fin 32), HartReady s h →
      (∀ off, hartTarget s h addr.toNat (2^n.val) [.write] = .dmem off →
        ∃ t, exec (.hartAccess h (.store n) addr val rd) s = .next t
          ∧ HartAdvanced s t h 0 0 ∧ (t.hart h).imem = (s.hart h).imem ∧ (t.hart h).resv = (s.hart h).resv
          ∧ (t.hart h).dmem = Memory.write 0 (s.hart h).dmem off (leBytes (2^n.val) val.toNat) ∧ SameMap s t)
      ∧ (∀ a, hartTarget s h addr.toNat (2^n.val) [.write] = .here a → isRegs a = false → a % 2^n.val = 0 →
          (State.isDram a && s.dramShut a) = false → Memory.wf 0 s.mem = true →
        ∃ t, exec (.hartAccess h (.store n) addr val rd) s = .next t
          ∧ HartAdvanced s t h 0 0 ∧ SamePrivate s t h
          ∧ t.bytes a (2^n.val) = leBytes (2^n.val) val.toNat ∧ SameMapBut s t a (2^n.val)
          ∧ t.linePoison a = s.linePoison a))

/-- R140: LR in the private data memory takes a reservation and returns the word. SC to the reserved word stores and
answers 0; without the reservation it stores nothing and answers 1. Either ends the reservation. R140, R195: an
aligned AMO on the private data memory, and AMOADD.W, AMOMIN.W and AMOMAX.W on a clean line of an addressable shared
cache, write the function of the old value and the operand and return the old value sign-extended. It rests on the
model's choices of log entry 25. -/
def Obligations.HartAtomicsComplete : Prop :=
  (∀ (s : State) (h : Hart) (wide : Bool) (addr val : DWord) (rd : Fin 32) (off : Nat), HartReady s h →
      addr.toNat % (if wide then 8 else 4) = 0 → (∀ acc ∈ [[Access.read], [.write]], hartTarget s h addr.toNat (if wide then 8 else 4) acc = .dmem off) →
      (∃ t, exec (.hartAccess h (.lr wide) addr val rd) s = .next t
        ∧ HartAdvanced s t h rd (loadValue (if wide then 8 else 4) true
            (Memory.read 0 (s.hart h).dmem off (if wide then 8 else 4)))
        ∧ (t.hart h).resv = some (off, if wide then 8 else 4) ∧ (t.hart h).dmem = (s.hart h).dmem ∧ SameMap s t)
      ∧ ((s.hart h).resv = some (off, if wide then 8 else 4) →
        ∃ t, exec (.hartAccess h (.sc wide) addr val rd) s = .next t ∧ HartAdvanced s t h rd 0
          ∧ (t.hart h).resv = none ∧ SameMap s t
          ∧ (t.hart h).dmem = Memory.write 0 (s.hart h).dmem off (leBytes (if wide then 8 else 4) val.toNat))
      ∧ ((s.hart h).resv ≠ some (off, if wide then 8 else 4) →
        ∃ t, exec (.hartAccess h (.sc wide) addr val rd) s = .next t ∧ HartAdvanced s t h rd 1
          ∧ (t.hart h).resv = none ∧ (t.hart h).dmem = (s.hart h).dmem ∧ SameMap s t))
  ∧ (∀ (s : State) (h : Hart) (fn : AmoFn) (wide : Bool) (addr val : DWord) (rd : Fin 32) (off : Nat), HartReady s h →
    addr.toNat % (if wide then 8 else 4) = 0 → hartTarget s h addr.toNat (if wide then 8 else 4) [.read, .write] = .dmem off →
    ∃ t, exec (.hartAccess h (.amo fn wide) addr val rd) s = .next t
      ∧ HartAdvanced s t h rd (loadValue (if wide then 8 else 4) true
          (Memory.read 0 (s.hart h).dmem off (if wide then 8 else 4)))
      ∧ (t.hart h).dmem = Memory.write 0 (s.hart h).dmem off (leBytes (if wide then 8 else 4)
          (amoValue fn (if wide then 8 else 4)
            (leNat (Memory.read 0 (s.hart h).dmem off (if wide then 8 else 4))) val.toNat))
      ∧ SameMap s t)
  ∧ (∀ (s : State) (h : Hart) (fn : ScAmo) (addr val : DWord) (rd : Fin 32) (a : Nat), HartReady s h →
    addr.toNat % 4 = 0 → hartTarget s h addr.toNat 4 [.read, .write] = .here a → isCacheAddr a = true → a % 4 = 0 →
    s.rangePoison a 4 = false → Memory.wf 0 s.mem = true →
    ∃ t, exec (.hartAmo h fn addr val rd) s = .next t
      ∧ HartAdvanced s t h rd (loadValue 4 true (s.bytes a 4)) ∧ SamePrivate s t h
      ∧ t.bytes a 4 = leBytes 4 (amoValue (scAmoFn fn) 4 (leNat (s.bytes a 4)) val.toNat)
      ∧ SameMapBut s t a 4)

/-! ### The matrix engine (chapters 2 to 4) -/

/-- R42 to R48, R72, R94, R95: a tile instruction at the head of the queue that passes its checks and waits for
nothing runs. A closing one leaves its drain, with the output tiles that it has
finished, and writes nothing yet; one of a single output tile closes its group at once, and one that has tiles left
stays the running instruction;
one that leaves its group open leaves it with the instruction's shape and ⌈K/32⌉ more blocks. One that reads a landing
ring with no row has made its load and opened its group, and waits, STARVED. It rests on the model's choices of log entries 32, 33. -/
def Obligations.TileComplete : Prop :=
  ∀ (s : State) (k : CoreIx) (i : TileIns) (rest : List TileIns) (d : TileD) (g : Group) (f : Fold),
    CoreReady s k → s.shaped = true → mxeMayStart s k = true → (s.mxe k).run = none → (s.mxe k).queue = i :: rest →
    (s.mxe k).waiters = [] → d = tileD i.desc → g = (s.mxe k).groups.getD d.group {} → f = foldOf d g →
    tileCheck s k d g f = none →
    overlapsDrain (s.mxe k) d (spillArea s k d g) = false → waitsBanks (s.mxe k) d f = false →
    ownDrain s k = none → (s.mxe k).behind = [] → (∀ h, (s.mxe k).drains.head? ≠ some (.ready h)) →
    (d.bRing = false → d.close = true → d.split = false → g.merging = none →
      (∀ addr, addr = scratchAddr k (2048 * s.fld .mxeConvBase k [] 22 11 + 32 * d.conv) →
        convCheck s d addr (convD (s.bytes addr 32)) = none) →
      ∃ t l x, exec (.tile k) s = .next t ∧ (t.mxe k).queue = rest ∧ (t.mxe k).drains = l ++ [.drain x]
        ∧ l.length = (s.mxe k).drains.length ∧ x.ins = i ∧ x.opened = d.isOpen ∧ x.mode = f.mode ∧ 0 < x.tiles.length
        ∧ SameMap s t ∧ t.tallies = s.tallies ∧ t.harts = s.harts
        ∧ (f.mTiles * f.nTiles = 1 → (t.mxe k).run = none ∧ x.more = false ∧ x.tiles.length = 1
            ∧ x.loads = loadsOf d f (tagMatches (s.mxe k).tag d f.mode)
            ∧ ((t.mxe k).groups.getD d.group {}).isOpen = false)
        ∧ (∀ r, (t.mxe k).run = some r → r.ins = i ∧ x.more = true ∧ r.tiles.length + x.tiles.length = f.mTiles * f.nTiles))
    ∧ (d.bRing = false → d.close = false →
      ∃ t, exec (.tile k) s = .next t ∧ (t.mxe k).queue = rest ∧ (t.mxe k).run = none
        ∧ ((t.mxe k).groups.getD d.group {}).isOpen = true
        ∧ ((t.mxe k).groups.getD d.group {}).m = d.m ∧ ((t.mxe k).groups.getD d.group {}).n = d.n
        ∧ ((t.mxe k).groups.getD d.group {}).mode = f.mode
        ∧ ((t.mxe k).groups.getD d.group {}).blocks = (if d.isOpen then 0 else g.blocks) + ceilDiv d.k 32
        ∧ t.harts = s.harts)
    ∧ (d.bRing = true → mustStagger s k d = none → (s.str k d.ringUnit).ring = [] →
      ∃ t r, exec (.tile k) s = .next t ∧ (t.mxe k).queue = rest ∧ (t.mxe k).run = some r ∧ r.ins = i
        ∧ r.starved = true ∧ r.loads = (if d.keepA = true ∧ tagMatches (s.mxe k).tag d f.mode = true then 0 else 1)
        ∧ ((t.mxe k).groups.getD d.group {}).isOpen = (d.isOpen || g.isOpen)
        ∧ (d.isOpen = false → (t.mxe k).groups = (s.mxe k).groups) ∧ SameMap s t)

/-- R52, R53: a running tile instruction that meets a ring's failure mark stops with FAULT_HALT, its group is closed
without further output, and the mark is consumed. R79, R80: when the merge of a closed partial ends, its group has no
partial in hand, the first free level of the tree is occupied and every level below it is free. R60: at the end of the
load sequencer's window the lowest core of a cluster that waits with a multicast set is granted its load, and the
grant is noted for the window that begins. It rests on the model's choices of log entries 32, 113. -/
def Obligations.MatrixSequencerComplete : Prop :=
  (∀ (s : State) (k : CoreIx) (r : TileRun) (d : TileD) (ents : List RingEnt),
      CoreReady s k → s.shaped = true → (s.mxe k).run = some r → r.staggerWait = false → r.overlap = false → d = tileD r.ins.desc →
      d.bRing = true → r.taken = [] → r.begun = true → r.kDone < d.k → (∀ x ∈ r.tiles, x.2 * modeWidth r.mode < d.n) →
      (∀ x, r.tiles.head? = some x → r.hold = some (x.1, r.kDone / modeDepth r.mode d.fmtA)) → r.tiles ≠ [] →
      1 ≤ r.mode → r.mode ≤ 4 → (∃ b, (s.str k d.ringUnit).ring = .mark b :: ents) →
      (s.mxe k).behind = [] → (s.mxe k).drains = [] → (s.mxe k).held = [] → cplFull (s.mxe k).head (s.mxe k).tail = false →
      ∃ t, exec (.tile k) s = .next t ∧ (t.mxe k).run = none ∧ ((t.mxe k).groups.getD d.group {}).isOpen = false
        ∧ (t.str k d.ringUnit).ring = ents ∧ (t.mxe k).tail = (s.mxe k).tail + 1
        ∧ bits (t.reg .mxeErr k []).toNat 15 8 = 0x11)
  ∧ (∀ (s : State) (k : CoreIx) (n : UnitIx) (g : Group) (v : Cells),
      s.on = true → s.shaped = true → (s.mxe k).drains = [] → g = (s.mxe k).groups.getD n {} → g.merging = some v →
      freeLevel g < g.levels.length →
      ∃ t g', exec (.partialMergeDone k n) s = .next t ∧ (t.mxe k).groups.getD n {} = g' ∧ g'.merging = none
        ∧ g'.levels.getD (freeLevel g) false = true ∧ (∀ j, j < freeLevel g → g'.levels.getD j true = false)
        ∧ g'.cells = g.cells ∧ g'.blocks = g.blocks ∧ g'.isOpen = g.isOpen ∧ (t.mxe k).queue = (s.mxe k).queue
        ∧ t.harts = s.harts ∧ t.tallies = s.tallies)
  ∧ (∀ (s : State) (c : ClusterIx) (k m : Nat) (r : TileRun),
      s.on = true → 8 * c.val ≤ k → k < 8 * c.val + 8 → (s.mxe k).run = some r → r.staggerWait = true →
      multicastSet s k (tileD r.ins.desc).ringUnit = some m →
      (∀ j r', 8 * c.val ≤ j → j < k → (s.mxe j).run = some r' → r'.staggerWait = true →
        multicastSet s j (tileD r'.ins.desc).ringUnit ≠ some m) →
      ∃ t, exec (.staggerWindowEnd c) s = .next t
        ∧ (t.mxe k).run = some { r with staggerWait := false, granted := true }
        ∧ (m, k) ∈ (t.cluster c).grants ∧ SameMap s t ∧ t.harts = s.harts ∧ t.tallies = s.tallies)

/-- R66, R69, R71: a block of integers is entered into a cell as the exact sum modulo 2^32, and the cell is flagged
when the exact sum left INT32; a block of floating-point products is summed exactly with the cell and rounded once to
A40; a poisoned element poisons the cell. -/
def Obligations.CellBlockIsOneRoundedSum : Prop :=
  ∀ (fa fb : Nat) (c : Cell) (ps : List (Elem × Elem)),
    (∀ xs ys : List Int, ps.map (fun p => elemVal fa p.1.1) = xs.map FVal.ofInt →
        ps.map (fun p => elemVal fb p.2.1) = ys.map FVal.ofInt →
        cellInt (cellBlock true fa fb c ps).1 = (cellInt c + (List.zipWith (· * ·) xs ys).sum).bmod (2^32)
        ∧ ((cellBlock true fa fb c ps).2 = true
          ↔ cellInt c + (List.zipWith (· * ·) xs ys).sum < -2^31 ∨ 2^31 ≤ cellInt c + (List.zipWith (· * ·) xs ys).sum))
    ∧ (cellBlock false fa fb c ps).1.img
        = a40Image (rne40 (FVal.sum (a40Of c.img :: ps.map fun p => trunc40 (FVal.mul (elemVal fa p.1.1) (elemVal fb p.2.1)))))
    ∧ (∀ isInt, (cellBlock isInt fa fb c ps).1.poison = (c.poison || ps.any fun p => p.1.2 || p.2.2))

/-- R47, R50, R54, R97: the drain of a one-row output tile into the scratchpad writes the packed row that the pipeline
computes at OUT_ADDR + m × OUT_STRIDE × 64, then one completion record; when the drain waited on a full egress queue,
room in that queue does the same. It rests on the model's choices of log entry 32. -/
def Obligations.TileDrainComplete : Prop :=
  ∀ (s : State) (k : CoreIx) (x : Drain) (tl : DrainTile) (d : TileD) (c : ConvD) (row : List Cell),
    CoreReady s k → (s.mxe k).drains = [.drain x] → x.tiles = [tl] → x.row = 0 → d = tileD x.ins.desc → c = convD x.conv →
    x.more = false → tl.final = some [row] → (tl.rmask.getD 0).getLsbD (tl.m0 % 128) = false →
    (s.mxe k).held = [] → cplFull (s.mxe k).head (s.mxe k).tail = false → Memory.wf 0 s.mem = true →
    (∀ b a, c.dest = 0 → a = scratchAddr k (c.outAddr + tl.m0 * c.outStride * 64 + (elemSpan c.fmt tl.n0).1) →
      b = packRow c.fmt (pipeRow s k d c tl.group.isInt tl.m0 tl.n0 row).elems →
      a % 64 = 0 → regionOf a = .scratch k (a % 2^23) → a % 2^23 + b.length ≤ 2^23 →
      (a + b.length ≤ s.cplSlot (.mxe k) ((s.mxe k).tail.toNat % 16)
        ∨ s.cplSlot (.mxe k) ((s.mxe k).tail.toNat % 16) + 1088 ≤ a) →
      ∃ t, exec (.tileDrainDone k) s = .next t ∧ (t.mxe k).drains = [] ∧ (t.mxe k).tail = (s.mxe k).tail + 1
        ∧ t.bytes a b.length = b)
    ∧ (∀ u : UnitIx, c.dest = 1 → c.egressUnit = u.val → x.egressWait = true → s.shaped = true →
      egressLines (s.str k u)
        + ceilDiv (packRow c.fmt (pipeRow s k d c tl.group.isInt tl.m0 tl.n0
            row).elems).length 64 ≤ 512 →
      ∃ t e, exec (.egressQueueSpace k u) s = .next t ∧ (t.mxe k).drains = []
        ∧ (t.mxe k).tail = (s.mxe k).tail + 1 ∧ (t.str k u).egress = (s.str k u).egress ++ [e]
        ∧ e.bytes = packRow c.fmt (pipeRow s k d c tl.group.isInt tl.m0 tl.n0
            row).elems)

/-- R56, R61: DISCARD_GROUPS of an idle engine closes every group and changes nothing else; of a busy one it changes
no group. FLUSH empties the queue and leaves the running instruction. ENABLE takes its value at once. A HEAD write
that R56 accepts, with no completion held, moves HEAD alone, and any other leaves it. R137: FLUSH empties the vector
queue and leaves its tables; ENABLE takes its value at once, and no other register changes. -/
def Obligations.EngineControlComplete : Prop :=
  (∀ (s : State) (k : CoreIx), s.on = true →
    (mxeBusy s k = false →
      ∃ t, exec (.mxeDiscardGroups k) s = .next t ∧ t = { s with cores := t.cores }
        ∧ (∀ g ∈ (t.mxe k).groups, g.isOpen = false ∧ g.banks = [])
        ∧ (t.mxe k).groups.length = (s.mxe k).groups.length ∧ (t.mxe k).tail = (s.mxe k).tail)
    ∧ (mxeBusy s k = true → ∃ t, exec (.mxeDiscardGroups k) s = .next t ∧ t.cores = s.cores ∧ SameMap s t)
    ∧ ((s.mxe k).waiters = [] →
      ∃ t, exec (.mxeFlush k) s = .next t ∧ (t.mxe k).queue = [] ∧ (t.mxe k).run = (s.mxe k).run
        ∧ (t.mxe k).groups = (s.mxe k).groups ∧ t.harts = s.harts)
    ∧ (∀ en, ∃ t, exec (.mxeEnable k en) s = .next t ∧ t = { s with regs := t.regs }
        ∧ t.fld .mxeCtrl k [] 0 0 = en.toNat ∧ SameRegsBut s t [regOff .mxeCtrl k]))
  ∧ (∀ (s : State) (e : EngineSel) (head : BitVec 5), s.on = true → s.shaped = true →
    (headOk (s.cplHead (engOf e)) head (s.cplTail (engOf e)) = true → s.cplHeld (engOf e) = [] →
      ∃ t, exec (.cplHeadWrite e head) s = .next t ∧ t = { s with cores := t.cores } ∧ t.cplHead (engOf e) = head
        ∧ t.cplTail (engOf e) = s.cplTail (engOf e))
    ∧ (headOk (s.cplHead (engOf e)) head (s.cplTail (engOf e)) = false →
      ∃ t, exec (.cplHeadWrite e head) s = .next t ∧ t.cplHead (engOf e) = s.cplHead (engOf e) ∧ SameMap s t))
  ∧ (∀ (s : State) (k : CoreIx), s.on = true →
      ((s.vxe k).waiters = [] →
        ∃ t, exec (.vxeFlush k) s = .next t ∧ (t.vxe k).queue = [] ∧ (t.vxe k).tables = (s.vxe k).tables
          ∧ t.mxe k = s.mxe k ∧ t.harts = s.harts)
      ∧ (∀ en, ∃ t, exec (.vxeEnable k en) s = .next t ∧ t = { s with regs := t.regs }
          ∧ t.fld .vxeCtrl k [] 0 0 = en.toNat ∧ SameRegsBut s t [regOff .vxeCtrl k]))

/-! ### The vector engine (chapter 5) -/

/-- R115, R135, R136: each of the vector commands takes the instruction at the head of the queue that carries its
OPCODE and completes it: the queue loses it and the completion ring gains one record. Where a check of R115 fails, the
record holds that check's STATUS and DETAIL, the OPCODE and the SEQ, and no byte outside the record's slot changes. It
rests on the model's choices of log entries 11, 38. -/
def Obligations.VectorInstructionsComplete : Prop :=
  ∀ (s : State) (k : CoreIx) (i : TileIns) (rest : List TileIns) (p : Nat × (CoreIx → Instr)),
    VecReady s k i rest → p ∈ vecCommands → fieldAt i.desc 0 1 = p.1 →
    (∃ t, exec (p.2 k) s = .next t ∧ (t.vxe k).queue = rest ∧ (t.vxe k).tail = (s.vxe k).tail + 1
      ∧ (t.vxe k).seq = (s.vxe k).seq ∧ t.mxe k = s.mxe k ∧ t.harts = s.harts
      ∧ ((vecD i.desc).tally = none → t.tallies = s.tallies))
    ∧ (∀ st det a, vecCheck s k (vecD i.desc) = some (st, det) → a = s.cplSlot (.vxe k) ((s.vxe k).tail.toNat % 16) →
      ∃ t, exec (p.2 k) s = .next t ∧ t.byte a = BitVec.ofNat 8 (statusCode st)
        ∧ t.byte (a + 1) = BitVec.ofNat 8 (min det 255) ∧ t.byte (a + 3) = BitVec.ofNat 8 p.1
        ∧ t.bytes (a + 4) 4 = leBytes 4 i.seq.toNat ∧ SameMapBut s t a 32)

/-- R110, R111, R113, R118: an unmasked elementwise instruction on FP32 elements of one lane group, without poison,
writes for each element the encoding of its operation on a, b (and the old destination for FMA), every source read
before the group is written. -/
def Obligations.VectorElementwiseFp32Result : Prop :=
  ∀ (s : State) (k : CoreIx) (i : TileIns) (rest : List TileIns) (p : Nat × (CoreIx → Instr)) (d : VecD) (c : VCtx)
      (tab : Option VTable),
    VecReady s k i rest → p ∈ vecCommands → 1 ≤ p.1 → p.1 ≤ 0x10 → p.1 ≠ 9 → fieldAt i.desc 0 1 = p.1 →
    d = vecD i.desc → c = ⟨k, d⟩ → tab = (s.vxe k).tables.getD (d.aux % 8) none → vecCheck s k d = none →
    d.maskEn = false → d.rows = false → d.fmtA = 0 → d.fmtD = 0 → d.len ≤ 1024 →
    s.rangePoison (c.sp d.srcA) (4 * d.len) = false → s.rangePoison (c.sp d.dst) (4 * d.len) = false →
    (vecBinary p.1 = true → d.bmode = 0 → s.rangePoison (c.sp d.srcB) (4 * d.len) = false) →
    (s.cplSlot (.vxe k) ((s.vxe k).tail.toNat % 16) + 32 ≤ c.sp d.dst
      ∨ c.sp d.dst + 4 * d.len ≤ s.cplSlot (.vxe k) ((s.vxe k).tail.toNat % 16)) →
    ∃ t, exec (p.2 k) s = .next t
      ∧ ∀ j, j < d.len → t.bytes (c.sp d.dst + 4 * j) 4
          = leBytes 4 (convOut 0 none false (floatOp p.1 tab d.aux (c.a s j).1
              (if vecBinary p.1 then (c.b s j).1 else .nan) (if p.1 = 4 then (c.dOld s j).1 else .nan)).1).1

/-- R110: integer results saturate, and each integer operation is exact between. R117, R118, R123: the comparison of
CMP: with a NaN operand every condition but NE is false, and NE is true. -/
def Obligations.VectorIntegerAndCompareRules : Prop :=
  (∀ a b : Int, -2^31 ≤ a → a < 2^31 → -2^31 ≤ b → b < 2^31 →
      (∀ v : Int, -2^31 ≤ v → v < 2^31 → satInt v = (FVal.ofInt v, 0))
      ∧ (∀ v : Int, 2^31 ≤ v → satInt v = (FVal.ofInt (2^31 - 1), vSat))
      ∧ (∀ v : Int, v < -2^31 → satInt v = (FVal.ofInt (-2^31), vSat))
      ∧ intOp 1 a b = satInt (a + b) ∧ intOp 2 a b = satInt (a - b) ∧ intOp 3 a b = satInt (a * b)
      ∧ intOp 5 a b = (FVal.ofInt (min a b), 0) ∧ intOp 6 a b = (FVal.ofInt (max a b), 0)
      ∧ intOp 7 a b = (if a = -2^31 then (FVal.ofInt (2^31 - 1), vSat) else (FVal.ofInt a.natAbs, 0))
      ∧ intOp 8 a b = (FVal.ofInt a, 0))
  ∧ (∀ a b : FVal, (a = .nan ∨ b = .nan) → (∀ n, n ≠ 1 → cmpCond n a b = false) ∧ cmpCond 1 a b = true)

/-- R117, R118: a one-row reduction without poison writes the FP32 result of the row's active elements at DST. -/
def Obligations.VectorReductionResult : Prop :=
  ∀ (s : State) (k : CoreIx) (i : TileIns) (rest : List TileIns) (p : Nat × (CoreIx → Instr)) (d : VecD) (c : VCtx),
    VecReady s k i rest → p ∈ vecCommands → 0x20 ≤ p.1 → p.1 ≤ 0x23 → fieldAt i.desc 0 1 = p.1 →
    d = vecD i.desc → c = ⟨k, d⟩ → vecCheck s k d = none → d.maskEn = false → d.nRows = 1 →
    (c.row s 0).any (fun e => e.2.2) = false →
    (s.cplSlot (.vxe k) ((s.vxe k).tail.toNat % 16) + 32 ≤ c.sp d.dst
      ∨ c.sp d.dst + 4 ≤ s.cplSlot (.vxe k) ((s.vxe k).tail.toNat % 16)) →
    ∃ t, exec (p.2 k) s = .next t
      ∧ t.bytes (c.sp d.dst) 4 = leBytes 4 ((redOp d ((c.row s 0).map fun e => e.2.1)).1.enc fp32)

/-- R125 to R129: SMAX_ROW, SMAX_RESCALE, SMAX_MERGE and SMAX_FINAL that pass their checks take their rows in order,
each row's sources read before it is written, and then complete. R122: LUTLOAD of a valid image loads its table. R130
to R132: SAMPLE of unpoisoned logits with a valid parameter block writes the token drawn, its log-probabilities and
the number of candidates kept at DST. -/
def Obligations.VectorSoftmaxTableAndSampleComplete : Prop :=
  (∀ (s : State) (k : CoreIx) (i : TileIns) (rest : List TileIns) (d : VecD) (f : VCtx → VAcc → Nat → VAcc)
        (p : Nat × (CoreIx → Instr) × (VCtx → VAcc → Nat → VAcc)),
      VecReady s k i rest →
      p ∈ [(0x30, Instr.smaxRow, smaxRow), (0x31, .smaxRescale, smaxRescale), (0x32, .smaxMerge, smaxMerge),
        (0x33, .smaxFinal, smaxFinal)] →
      f = p.2.2 → fieldAt i.desc 0 1 = p.1 → d = vecD i.desc → vecCheck s k d = none → d.maskEn = false →
      ∃ t, exec (p.2.1 k) s = .next t
        ∧ t = vecDone k i ((List.range d.nRows).foldl (f ⟨k, d⟩)
            ⟨s.modVxe k fun v => { v with queue := rest }, 0, [], 0, 0⟩) false)
  ∧ (∀ (s : State) (k : CoreIx) (i : TileIns) (rest : List TileIns) (d : VecD) (a : Nat),
    VecReady s k i rest → fieldAt i.desc 0 1 = 0x11 → d = vecD i.desc → vecCheck s k d = none → d.maskEn = false →
    a = scratchAddr k d.srcA → s.rangePoison a 2112 = false → (s.vxe k).tables.length = 8 →
    (fp32.decode (leNat (s.bytes a 4))).isNan = false → (fp32.decode (leNat (s.bytes a 4))).isInf = false →
    (fp32.decode (leNat (s.bytes (a + 4) 4))).isNan = false → (fp32.decode (leNat (s.bytes (a + 4) 4))).isInf = false →
    (fp32.decode (leNat (s.bytes (a + 4) 4))).isZero = false → (fp32.decode (leNat (s.bytes (a + 4) 4))).sign = false →
    ∃ t tb, exec (.lutload k) s = .next t ∧ (t.vxe k).tables.getD (d.aux % 8) none = some tb
      ∧ tb.xMin.toNat = leNat (s.bytes a 4) ∧ tb.invStep.toNat = leNat (s.bytes (a + 4) 4)
      ∧ (∀ j, j < 512 → (tb.y.getD j 0).toNat = leNat (s.bytes (a + 64 + 4 * j) 4))
      ∧ (∀ j, j ≠ d.aux % 8 → (t.vxe k).tables.getD j none = (s.vxe k).tables.getD j none))
  ∧ (∀ (s : State) (k : CoreIx) (i : TileIns) (rest : List TileIns) (d : VecD) (c : VCtx) (p : List Byte)
      (row : List (Nat × FVal × Bool)) (tok kept : Nat) (lf lk : FVal) (fl : VFlags),
    VecReady s k i rest → fieldAt i.desc 0 1 = 0x40 → d = vecD i.desc → c = ⟨k, d⟩ → vecCheck s k d = none →
    d.maskEn = false → p = s.bytes (c.sp d.srcB) 32 → s.rangePoison (c.sp d.srcB) 32 = false → sampleParamBad p = false →
    row = (List.range d.len).map (fun j => (j, c.a s j)) → row.any (fun e => e.2.2) = false →
    sampleDraw d p (row.map fun e => (e.1, e.2.1)) = (some (tok, lf, lk, kept), fl) →
    s.rangePoison (c.sp d.dst) 16 = false →
    (s.cplSlot (.vxe k) ((s.vxe k).tail.toNat % 16) + 32 ≤ c.sp d.dst
      ∨ c.sp d.dst + 16 ≤ s.cplSlot (.vxe k) ((s.vxe k).tail.toNat % 16)) →
    ∃ t, exec (.sample k) s = .next t
      ∧ t.bytes (c.sp d.dst) 16 = leBytes 4 tok ++ leBytes 4 (lf.enc fp32) ++ leBytes 4 (lk.enc fp32) ++ leBytes 4 kept)

/-! ### Stream units, drill and translation (chapter 6) -/

/-- R153 to R157: each of the stream commands takes the descriptor at the head of the queue that carries its OPCODE.
One that passes R154 runs; one that fails completes with the failing step's STATUS and DETAIL, its OPCODE, FLAGS and
SEQ in one record, and outside the record's slot only the ring of a failed RING descriptor changes. It rests on the
model's choices of log entry 11. -/
def Obligations.StreamCommandsTakeTheHead : Prop :=
  ∀ (s : State) (k : CoreIx) (u : UnitIx) (i : TileIns) (rest : List TileIns) (p : Nat × (CoreIx → UnitIx → Instr)),
    StrReady s k u i rest → p ∈ strCommands → (strD i.desc).opcode = p.1 →
    (strCheck s k u (strD i.desc) false = none →
      ∃ t, exec (p.2 k u) s = .next t
        ∧ t = strAfter 2 (strHead (s.modStr k u fun x => { x with queue := rest }) k u i) k u)
    ∧ (∀ st det a, strCheck s k u (strD i.desc) false = some (st, det) →
      a = s.cplSlot (.str k u) ((s.str k u).tail.toNat % 16) →
      ∃ t, exec (p.2 k u) s = .next t ∧ (t.str k u).queue = rest ∧ (t.str k u).tail = (s.str k u).tail + 1
        ∧ t.byte a = BitVec.ofNat 8 (statusCode st) ∧ t.byte (a + 1) = BitVec.ofNat 8 (min det 255)
        ∧ t.byte (a + 2) = BitVec.ofNat 8 p.1 ∧ t.bytes (a + 4) 4 = leBytes 4 i.seq.toNat
        ∧ SameMapBut s t a 32 ∧ t.harts = s.harts)

/-- R153, R156, R157: a COPY of one row from the core's own scratchpad to another place of it, without poison, writes
the row's bytes at the destination, counts them, and completes with OK. R153, R169: a RING of one row from the core's
own scratchpad into its own landing ring with a free row lands one row in the next slot of the ring, padded with
zeros. R94, R97, R153: an EGRESS of one row of the queue to the core's own scratchpad writes its bytes there and the
queue loses it. R166, R167: the drill's turn for the one multicast run of a cluster, at the start of a row from its
core's scratchpad without poison, with a free row in every member's ring: every member's ring gains that row. R152,
R153, R195, R196: an ATOMIC of one line of INT32 elements from the core's own scratchpad, without poison, into a line of
an addressable shared cache that the translation unit knows combines each element in place, changes no other byte of
the map but its record, and completes with OK. It rests on the model's choices of log entries 39, 118. -/
def Obligations.LocalStreamsComplete : Prop :=
  (∀ (s : State) (k : CoreIx) (u : UnitIx) (i : TileIns) (rest : List TileIns) (d : StrD) (src dst a : Nat),
      StrReady s k u i rest → d = strD i.desc → d.opcode = 1 → strCheck s k u d false = none → d.persistent = false →
      d.digestEn = false → isLocal d.src = true → isLocal d.dst = true → d.n1 = 1 → d.n2 = 1 → d.resOff = 0 →
      src = scratchAddr k (bits d.src 22 0) → dst = scratchAddr k (bits d.dst 22 0) →
      a = s.cplSlot (.str k u) ((s.str k u).tail.toNat % 16) →
      s.rangePoison src d.rowLen = false → (src + d.rowLen ≤ dst ∨ dst + d.rowLen ≤ src) →
      (dst + d.rowLen ≤ a ∨ a + 32 ≤ dst) →
      ∃ t, exec (.copy k u) s = .next t ∧ t.bytes dst d.rowLen = s.bytes src d.rowLen
        ∧ (∀ x, (x < dst ∨ dst + d.rowLen ≤ x) → (x < a ∨ a + 32 ≤ x) → t.byte x = s.byte x)
        ∧ t.byte a = 0 ∧ t.bytes (a + 16) 8 = leBytes 8 d.rowLen ∧ (t.str k u).tail = (s.str k u).tail + 1
        ∧ (t.str k u).active = (s.str k u).active)
  ∧ (∀ (s : State) (k : CoreIx) (u : UnitIx) (i : TileIns) (rest : List TileIns) (d : StrD) (src slot ring a : Nat),
    StrReady s k u i rest → d = strD i.desc → d.opcode = 2 → strCheck s k u d false = none → d.persistent = false →
    d.digestEn = false → d.mcast = false → isLocal d.src = true → d.n1 = 1 → d.n2 = 1 → d.resOff = 0 →
    ringFill (s.str k u) < ringRows s k u → ringHeldByOther s k u i.seq k = false →
    src = scratchAddr k (bits d.src 22 0) →
    slot = freeRingSlot (s.str k u).ring (ringRows s k u) (ringRows s k u) (s.str k u).ringNext → ring = ringRowAddr s k u slot →
    a = s.cplSlot (.str k u) ((s.str k u).tail.toNat % 16) → s.rangePoison src d.rowLen = false →
    ring + ringRowBytes s k u ≤ scratchAddr (k.val + 1) 0 →
    (src + d.rowLen ≤ ring ∨ ring + ringRowBytes s k u ≤ src) → (ring + ringRowBytes s k u ≤ a ∨ a + 32 ≤ ring) →
    ∃ t, exec (.ring k u) s = .next t
      ∧ t.bytes ring (ringRowBytes s k u)
          = s.bytes src d.rowLen ++ List.replicate (ringRowBytes s k u - d.rowLen) 0
      ∧ (t.str k u).ring = (s.str k u).ring ++ [.row slot s.issue]
      ∧ (t.str k u).tail = (s.str k u).tail + 1 ∧ t.byte a = 0)
  ∧ (∀ (s : State) (k : CoreIx) (u : UnitIx) (i : TileIns) (rest : List TileIns) (d : StrD) (e : EgressRow)
      (more : List EgressRow) (dst a : Nat),
    StrReady s k u i rest → d = strD i.desc → d.opcode = 3 → strCheck s k u d false = none → d.persistent = false →
    isLocal d.dst = true → d.n1 = 1 → d.n2 = 1 → d.resOff = 0 → (s.str k u).egress = e :: more →
    ceilDiv e.bytes.length 64 = d.rowLen / 64 → e.poisonLines = [] → dst = scratchAddr k (bits d.dst 22 0) →
    a = s.cplSlot (.str k u) ((s.str k u).tail.toNat % 16) → (dst + d.rowLen ≤ a ∨ a + 32 ≤ dst) →
    ∃ t, exec (.egress k u) s = .next t ∧ t.bytes dst e.bytes.length = e.bytes ∧ (t.str k u).egress = more
      ∧ (t.str k u).tail = (s.str k u).tail + 1 ∧ t.byte a = 0)
  ∧ (∀ (s : State) (c : ClusterIx) (j u a : Nat) (r : StrRun) (d : StrD) (src : Nat),
      s.on = true → s.shaped = true → Memory.wf 0 s.mem = true → j < 8 → u < 4 → a < 4 →
      (s.str (8 * c.val + j) u).active.getD a none = some r →
      (∀ p ∈ clusterSlots, p ≠ (j, u, a) → (s.str (8 * c.val + p.1) p.2.1).active.getD p.2.2 none = none) →
      NoHeldRearm s (8 * c.val + j) u → d = strD r.desc → d.opcode = 2 → d.mcast = true → d.digestEn = false →
      r.halted = none → r.badRow = false → r.off = 0 → r.i < d.n1 → r.j < d.n2 → 64 ≤ d.rowLen → d.rowLen % 64 = 0 → isLocal d.src = true →
      src = scratchAddr (8 * c.val + j) (bits d.src 22 0 + srcOff d r) → s.rangePoison src d.rowLen = false →
      r.set.Nodup → (∀ m ∈ r.set, m < 128) → ringsReady s (8 * c.val + j) u d r = true →
      ∃ t, exec (.drillRingRowWrite c) s = .next t
        ∧ ∀ m ∈ r.set, (t.str m u).ring
            = (s.str m u).ring
              ++ [.row (freeRingSlot (s.str m u).ring (ringRows s m u) (ringRows s m u) (s.str m u).ringNext) r.born])
  ∧ (∀ (s : State) (k : CoreIx) (u : UnitIx) (i : TileIns) (rest : List TileIns) (d : StrD) (e : TlbEnt) (src va dst a : Nat),
      StrReady s k u i rest → d = strD i.desc → d.opcode = 4 → d.ty = 3 → strCheck s k u d false = none →
      d.persistent = false → d.digestEn = false → d.mcast = false → isLocal d.src = true → isLocal d.dst = false →
      d.rowLen = 64 → d.resOff = 0 → d.n1 = 1 → d.n2 = 1 → src = scratchAddr k (bits d.src 22 0) → s.linePoison src = false →
      va = bits d.dst 47 0 → s.fld .xltCtrl (k / 8) [] 0 0 = 1 → bit e.leaf.toNat 2 = true →
      (s.cluster (k / 8)).tlb.find? (fun e => e.ctx == strCtx s k u && decide (e.page ≤ va / 65536)
        && decide (va / 65536 < e.page + e.pages)) = some e →
      s.locate (bits e.leaf.toNat 55 12 * 4096 + (va - e.page * 65536)) = .here dst → dst % 64 = 0 →
      isCache dst = true → a = s.cplSlot (.str k u) ((s.str k u).tail.toNat % 16) → (dst + 64 ≤ a ∨ a + 32 ≤ dst) →
      ∃ t, exec (.atomic k u) s = .next t ∧ (t.str k u).queue = rest ∧ (t.str k u).tail = (s.str k u).tail + 1
        ∧ (∀ j, j < 16 → t.bytes (dst + 4 * j) 4
            = leBytes 4 (combine d.op 3 (leNat (s.bytes (dst + 4 * j) 4)) (leNat (s.bytes (src + 4 * j) 4))))
        ∧ (∀ x, (x < dst ∨ dst + 64 ≤ x) → (x < a ∨ a + 32 ≤ x) → t.byte x = s.byte x)
        ∧ t.byte a = 0 ∧ t.harts = s.harts ∧ (d.tallyEn = false → t.tallies = s.tallies))

/-- R196: the combines of an ATOMIC. INT32 adds modulo 2^32 and orders as signed numbers. An FP32 or BF16 add is the
exact sum rounded once to nearest-even, an infinity beyond range; an F12W add beyond range is the largest finite value
of its sign. Infinities of two signs add to the canonical NaN, and so does a NaN operand in every combine. Of two
numbers min gives the smaller and max the larger, −0 less than +0. -/
def Obligations.AtomicCombines : Prop :=
  (∀ d s : Nat, d < 2^32 → s < 2^32 → combine 0 3 d s = (d + s) % 2^32
    ∧ toInt 32 (combine 1 3 d s) = min (toInt 32 d) (toInt 32 s)
    ∧ toInt 32 (combine 2 3 d s) = max (toInt 32 d) (toInt 32 s))
  ∧ (∀ (p : Nat × FFmt) (d s : Nat) (sum : FVal), p ∈ [(0, fp32), (1, bf16), (2, f12w)] →
      sum = (FVal.add (p.2.decode d) (p.2.decode s)).rnd p.2 →
      (sum = .nan → combine 0 p.1 d s = p.2.canonNan)
      ∧ (sum.isNan = false → sum.isInf = false ∨ p.1 ≠ 2 → combine 0 p.1 d s = sum.enc p.2)
      ∧ (∀ neg, sum = .inf neg → p.1 = 2 → combine 0 p.1 d s = if neg then 0xFF7 else 0x7F7))
  ∧ (∀ (p : Nat × FFmt) (op d s : Nat), p ∈ [(0, fp32), (1, bf16), (2, f12w)] →
      ((p.2.decode d).isNan = true ∨ (p.2.decode s).isNan = true) → combine op p.1 d s = p.2.canonNan)
  ∧ (∀ (p : Nat × FFmt) (d s : Nat), p ∈ [(0, fp32), (1, bf16), (2, f12w)] →
      d < 2^(1 + p.2.ebits + p.2.mbits) → s < 2^(1 + p.2.ebits + p.2.mbits) →
      (p.2.decode d).isNan = false → (p.2.decode s).isNan = false →
      ((p.2.decode d).lt (p.2.decode s) = true → combine 1 p.1 d s = d ∧ combine 2 p.1 d s = s)
      ∧ ((p.2.decode s).lt (p.2.decode d) = true → combine 1 p.1 d s = s ∧ combine 2 p.1 d s = d)
      ∧ (d = 2^(p.2.ebits + p.2.mbits) → s = 0 → combine 1 p.1 d s = d ∧ combine 2 p.1 d s = s)
      ∧ (d = 0 → s = 2^(p.2.ebits + p.2.mbits) → combine 1 p.1 d s = s ∧ combine 2 p.1 d s = d)
      ∧ combine 1 p.1 d d = d ∧ combine 2 p.1 d d = d)
  ∧ fp32.canonNan = 0x7FC00000 ∧ bf16.canonNan = 0x7FC0 ∧ f12w.canonNan = 0x7FC

/-- R160 to R162, R300, R301: resident firmware takes the oldest fault of a translation unit. When the halted run's
page now has a leaf, the run goes on; when its level-4 entry names a tier, a free frame is taken
and the page is read from that tier. R301,
R302: a page whose first copy carries the fingerprint of its tier entry is written into the frame taken for it, its
level-4 entry names that frame, and the fill is over. It rests on the model's choices of log entry
44. -/
def Obligations.TranslationFaultsAndFillsComplete : Prop :=
  (∀ (s : State) (c : ClusterIx) (f : FaultRep) (more : List FaultRep) (r : StrRun),
      s.on = true → (s.cluster c).faults = f :: more →
      (s.str f.core f.unit).active.getD f.slot none = some r → r.halted = some f.cause → r.faultVa = f.va →
      (∀ e l, (walk (s.modCluster c fun x => { x with faults := more }) c f.ctx f.va).2 = .leaf e l →
        ∃ t, exec (.translationFault c) s = .next t
          ∧ t = strUnhalt (s.modCluster c fun x => { x with faults := more }) f.core f.unit f.slot true)
      ∧ (∀ x a, (walk (s.modCluster c fun x => { x with faults := more }) c f.ctx f.va).2 = .fail .notValid x a → x = 4 →
        ∀ e p, e = leNat (s.bytes a 8) → 1 ≤ tierOf e → tierOf e ≤ 3 → (s.cluster c).fills = [] → s.dev.mode ≠ .failed →
        s.tiering.frames.find? (fun f => !pageRetired s f) = some p →
        ∃ t, exec (.translationFault c) s = .next t ∧ (t.cluster c).faults = more
          ∧ (t.cluster c).fills = [{ ctx := f.ctx, va := f.va / 65536 * 65536, frame := some p, asked := true }]
          ∧ .tierRead (tierOf e) (tierUnit e) (tierLocator e) ∈ t.out ∧ t.tiering.frames = s.tiering.frames.erase p
          ∧ t.cores = s.cores ∧ SameMap s t))
  ∧ (∀ (s : State) (c : ClusterIx) (ctx : Fin 8) (va : BitVec 48) (b : List Byte) (a e f : Nat) (l : List (Nat × Nat × Nat)) (fp : DWord),
      s.on = true → Memory.wf 0 s.mem = true → 
      (s.cluster c).fills = [{ ctx := ctx.val, va := va.toNat / 65536 * 65536, frame := some f, after := l, asked := true }] →
      pageWaiters s c ctx (va.toNat / 65536) = [] → leafAddr s c ctx va.toNat = some (a, e) →
      s.tiering.fps.find? (fun x => x.1 == BitVec.ofNat 64 e) = some (BitVec.ofNat 64 e, fp) → b.length = 65536 →
      fingerprint b = fp → tableCopy s a = none → f * 65536 + 65536 ≤ 0x80000000000 → a + 8 ≤ 0x80000000000 →
      a % 8 = 0 → (∀ x, x < 0x80000000000 → s.dramShut x = false) → (a + 8 ≤ f * 65536 ∨ f * 65536 + 65536 ≤ a) →
      ∃ t, exec (.pageFillDone c ctx va [some b]) s = .next t ∧ (t.cluster c).fills = []
        ∧ t.tiering.frames = s.tiering.frames ∧ t.bytes (f * 65536) 65536 = b
        ∧ t.bytes a 8 = leBytes 8 (s.ownId.getD 0 * 2^44 + f * 65536 + 3)
        ∧ ∃ x, t.tiering.filled = s.tiering.filled ++ [x] ∧ x.frame = f ∧ x.page = va.toNat / 65536)

/-- R162, R163, R171: a slot halted for 100 ms ends with FAULT_HALT; ABORT_HALTED ends every halted slot and discards
the ring's failure mark; FLUSH empties the queue; ENABLE takes its value at once; a STR_RESUME that names a halted
slot's token lets it go on, and any other is ignored. It rests on the model's choices of log entry 2. -/
def Obligations.StreamControlComplete : Prop :=
  ∀ (s : State) (k : CoreIx) (u : UnitIx), s.on = true → s.shaped = true → NoHeldRearm s k u →
    (∀ (slot : UnitIx) r, (s.str k u).active.getD slot none = some r → r.halted.isSome = true →
      r.faultAt + 100000000 ≤ s.pst.up → r.pers = none → (s.str k u).held = [] →
      cplFull (s.str k u).head (s.str k u).tail = false →
      ∃ t, exec (.tierTimeout k u slot) s = .next t ∧ (t.str k u).active.getD slot none = none
        ∧ (t.str k u).tail = (s.str k u).tail + 1 ∧ bits (t.reg .strErr k [u]).toNat 15 8 = 0x11)
    ∧ (∃ t, exec (.strAbortHalted k u) s = .next t
        ∧ (∀ j, j < 4 → ∀ r, (t.str k u).active.getD j none = some r → r.halted = none) ∧ ∀ b, .mark b ∉ (t.str k u).ring)
    ∧ ((s.str k u).waiters = [] → ∃ t, exec (.strFlush k u) s = .next t ∧ (t.str k u).queue = []
        ∧ (t.str k u).active = (s.str k u).active ∧ t.harts = s.harts)
    ∧ (∀ en, ∃ t, exec (.strEnable k u en) s = .next t ∧ t = { s with regs := t.regs }
        ∧ t.fld .strCtrl k [u] 0 0 = en.toNat ∧ SameRegsBut s t [regOff .strCtrl k [u]])
    ∧ (∀ (v : Word) i, v.toNat % 64 = 0 → haltedAt s k u (bits v.toNat 22 0) = some i →
        ∃ t, exec (.strResumeReg k u v) s = .next t ∧ t = strUnhalt s k u i true)
    ∧ (∀ v : Word, (v.toNat % 64 ≠ 0 ∨ haltedAt s k u (bits v.toNat 22 0) = none) →
        ∃ t, exec (.strResumeReg k u v) s = .next t ∧ t.cores = s.cores ∧ SameMap s t)

/-- R159, R172: an invalidation removes every cached translation, or those of its context, and INVAL_BUSY reads 1
until it is done. R306: ARM resets its digest slot and no other. R151, R174, R530: a write of CLU_SC_CFG while no job
owns the cluster takes effect: ADDR_4M holds the value, no line of the cluster's cache stays poisoned, and nothing
outside the cluster's cache changes. While a job owns it, it does not. It rests on the model's choices of log entry
42. -/
def Obligations.ClusterControlComplete : Prop :=
  (∀ (s : State) (c : ClusterIx), s.on = true →
      (∃ t, exec (.xltInvalAll c) s = .next t ∧ t = { s with clusters := t.clusters } ∧ (t.cluster c).tlb = []
        ∧ (t.cluster c).invalBusy = true ∧ ∀ j, j ≠ c.val → t.cluster j = s.cluster j)
      ∧ (∀ ctx : Fin 8, ∃ t, exec (.xltInvalCtx c ctx) s = .next t ∧ t = { s with clusters := t.clusters }
        ∧ (∀ e, e ∈ (t.cluster c).tlb ↔ e ∈ (s.cluster c).tlb ∧ e.ctx ≠ ctx.val)
        ∧ (t.cluster c).invalBusy = true ∧ ∀ j, j ≠ c.val → t.cluster j = s.cluster j)
      ∧ (∃ t, exec (.xltInvalDone c) s = .next t ∧ t = { s with clusters := t.clusters }
        ∧ t.cluster c = { s.cluster c with invalBusy := false } ∧ ∀ j, j ≠ c.val → t.cluster j = s.cluster j)
      ∧ (∀ n : Fin 64, ∃ t, exec (.digestArm c n) s = .next t ∧ t = { s with clusters := t.clusters }
        ∧ SMap.get {} (t.cluster c).digests n = ({} : DigestSlot)
        ∧ (∀ m, m ≠ n.val → SMap.get {} (t.cluster c).digests m = SMap.get {} (s.cluster c).digests m)
        ∧ ∀ j, j ≠ c.val → t.cluster j = s.cluster j))
  ∧ (∀ (s : State) (c : ClusterIx) (v : Word), s.on = true →
      (s.jobOwns c = false →
        ∃ t, exec (.scCfgWrite c v) s = .next t ∧ t.fld .cluScCfg c [] 4 0 = v.toNat % 32
          ∧ SameRegsBut s t [regOff .cluScCfg c]
          ∧ (∀ a, (a < 0x81000000000 + c.val * 2^26 ∨ 0x81000000000 + (c.val + 1) * 2^26 ≤ a) →
              t.byte a = s.byte a ∧ (a / 64 ∈ t.poison ↔ a / 64 ∈ s.poison))
          ∧ (∀ a, 0x81000000000 + c.val * 2^26 ≤ a → a < 0x81000000000 + (c.val + 1) * 2^26 → a / 64 ∉ t.poison)
          ∧ t.cores = s.cores)
      ∧ (s.jobOwns c = true →
        ∃ t, exec (.scCfgWrite c v) s = .next t ∧ t.reg .cluScCfg c = s.reg .cluScCfg c ∧ SameMap s t ∧ t.cores = s.cores))

/-! ### The register region (chapter 1), constellations and shadow groups -/

/-- R4, R30, R507, R508, R532: every register lies at a multiple of 4 bytes. An access that is misaligned or not 4
bytes wide, and one to an unassigned address, has no effect on a register and is recorded; a read returns 0. The
record of an Almanac that has not recorded the same combination in the same second stands in the event ring with the
next SEQ. -/
def Obligations.TurnedAwayAccessesComplete : Prop :=
  ∀ (s : State) (addr : BitVec 44) (off width : Nat) (wr : Bool) (val : DWord),
    s.on = true → regionOf addr.toNat = .regs off →
    (width ≠ 4 ∨ off % 4 ≠ 0 → ∃ t, exec (.misalignedRegAccess addr width wr val) s = .next t ∧ TurnedAway s t addr.toNat width wr val.toNat)
    ∧ (off % 4 = 0 → inAlmWindow off = false → findReg off = none →
        ∃ t, exec (.unassignedRegAccess addr wr (val.setWidth 32)) s = .next t ∧ TurnedAway s t addr.toNat 4 wr val.toNat)
    ∧ ∀ r : RegRef, r.off % 4 = 0

/-- R6, R7, R18: a write of a register that has no other effect takes each bit as the field's access type says: RW and
RWS bits take the value written, W1C bits clear where it is 1, RWI bits take it unless the block is busy, RO, WO and
reserved bits stay. No other register changes. R62: a read of a _LO counter register drives the low half and takes a
snapshot of the matching high register, which a later read of that register returns whatever the counter has become.
-/
def Obligations.RegisterAccessesComplete : Prop :=
  (∀ (s : State) (addr : BitVec 44) (v : Word) (off : Nat) (r : RegRef), s.on = true → regionOf addr.toNat = .regs off →
      off % 4 = 0 → inAlmWindow off = false → findReg off = some r → writeActs r.id = false →
      ∃ t, exec (.regWrite addr v) s = .next t
        ∧ (∀ f ∈ r.id.spec.fields, ∀ i, f.lo ≤ i → i ≤ f.hi →
            bit (t.reg r.id r.inst r.ix).toNat i = match f.acc with
              | .rw => v.getLsbD i
              | .rws => v.getLsbD i
              | .w1c => (s.reg r.id r.inst r.ix).getLsbD i && !v.getLsbD i
              | .rwi => if rwiBusy s r then (s.reg r.id r.inst r.ix).getLsbD i else v.getLsbD i
              | .ro => (s.reg r.id r.inst r.ix).getLsbD i
              | .wo => (s.reg r.id r.inst r.ix).getLsbD i)
        ∧ (∀ i, i < 32 → (∀ f ∈ r.id.spec.fields, i < f.lo ∨ f.hi < i) →
            bit (t.reg r.id r.inst r.ix).toNat i = (s.reg r.id r.inst r.ix).getLsbD i)
        ∧ SameRegsBut s t [regOff r.id r.inst r.ix, regOff .almMerged] ∧ SameMap s t ∧ t.cores = s.cores
        ∧ t.tallies = s.tallies)
  ∧ (∀ (s : State) (addr : BitVec 44) (off : Nat) (r : RegRef) (hi : RegId), s.on = true →
      regionOf addr.toNat = .regs off → off % 4 = 0 → inAlmWindow off = false → findReg off = some r → hiOf r.id = some hi →
      ∃ t, exec (.counterLoRead addr) s = .next t
        ∧ t = { s with snaps := t.snaps, out := .bus (readReg s r) :: s.out }
        ∧ ∀ u : State, u.snaps = t.snaps →
            (readReg u ⟨hi, r.inst, r.ix⟩).toNat &&& snapBits ⟨hi, r.inst, r.ix⟩
              = rawReg s ⟨hi, r.inst, r.ix⟩ &&& snapBits ⟨hi, r.inst, r.ix⟩)

/-- R14 to R17: a constellation completes once every member has its record, with a record of 32 bytes that holds the
descriptor's SEQ and the time: with OK when a member completed with OK
and the others with OK or ZERO, with ZERO when all did, and else with the status and the index of the lowest-indexed
member that has another; the tally that its descriptor enables is incremented once, and nothing happens before every member is done.
-/
def Obligations.ConstellationStatusComplete : Prop :=
  (∀ (s : State) (id : Nat) (d : ConsDesc) (seq : Word) (l : List (List Byte)) (st : List Status), s.on = true →
    consMembers s id = some l.length → st = l.map (fun r => statusOfCode (fieldAt r 0 1)) →
    ∃ t b, exec (.constellationComplete id d seq (l.map some)) s = .next t ∧ .consRecord id b ∈ t.out ∧ b.length = 32
      ∧ fieldAt b 4 4 = seq.toNat ∧ fieldAt b 24 8 = s.pst.now % 2^64
      ∧ ((∀ x ∈ st, x = .ok ∨ x = .zero) → .ok ∈ st → fieldAt b 0 1 = statusCode .ok)
      ∧ ((∀ x ∈ st, x = .zero) → fieldAt b 0 1 = statusCode .zero)
      ∧ (∀ (i : Nat) x, i < 2^16 → st[i]? = some x → x ≠ .ok → x ≠ .zero →
          (∀ (j : Nat) y, j < i → st[j]? = some y → y = .ok ∨ y = .zero) →
          fieldAt b 0 1 = statusCode x ∧ fieldAt b 8 2 = i)
      ∧ (∀ i n, (consKeeps s d).2.2 = some (i, n) → i < 2^14 →
          t.tally i = s.tally i + BitVec.ofNat 32 n ∧ SameTalliesBut s t i)
      ∧ ((consKeeps s d).2.2 = none → t.tallies = s.tallies) ∧ SameMap s t ∧ t.regs = s.regs ∧ t.cores = s.cores)
  ∧ (∀ (s : State) (id : Nat) (d : ConsDesc) (seq : Word) (l : List (Option (List Byte))), s.on = true → none ∈ l →
    exec (.constellationComplete id d seq l) s = .next s)

/-- R482: a COMMIT takes a snapshot of its group, and the group's safe boundary makes it effective. It rests on the
model's choices of log entry 60. -/
def Obligations.ShadowGroupsComplete : Prop :=
  (∀ (s : State) (c : ClusterIx), s.on = true → s.clusterFallow c = false →
    ∃ t, exec (.staggerCommit c) s = .next t ∧ (t.cluster c).autoSnap = some (s.fld .cluMxeStagger c [] 0 0 == 1)
      ∧ (t.cluster c).autoEff = (s.cluster c).autoEff ∧ t = { s with clusters := t.clusters })
  ∧ (∀ (s : State) (c : ClusterIx) (v : Bool), s.on = true → (s.cluster c).autoSnap = some v →
    ∃ t, exec (.shadowGroupApply (.stagger c)) s = .next t ∧ (t.cluster c).autoEff = v ∧ (t.cluster c).autoSnap = none
      ∧ t = { s with clusters := t.clusters })
  ∧ (∀ s : State, s.on = true →
    ∃ t, exec .collCommit s = .next t ∧ t.dev.ordSnap = some (s.fld .thrCollCtrl 0 [] 0 0 == 1)
      ∧ t.dev.ordEff = s.dev.ordEff ∧ t = { s with dev := { s.dev with ordSnap := t.dev.ordSnap } })
  ∧ (∀ (s : State) (v : Bool), s.on = true → s.dev.ordSnap = some v →
    exec (.shadowGroupApply .coll) s = .next { s with dev := { s.dev with ordEff := v, ordSnap := none } })

/-! ### Polestar and the Almanac (chapters 20 and 21) -/

/-- R497 to R501: a PPS pulse that is no glitch counts and gives its offset: below 1,000 ns it slews the counter, the
third consistent greater one steps it, an armed value is loaded at it; a glitch only counts. It rests on the model's
choices of log entry 15. -/
def Obligations.PpsPulseComplete : Prop :=
  ∀ s : State, s.on = true →
    (ppsGlitch s.pst = true →
      ∃ t, exec .ppsPulse s = .next t ∧ t.reg .pstGlitch = (s.reg .pstGlitch).incSat 1 ∧ t.pst.now = s.pst.now
        ∧ t.pst.state = s.pst.state ∧ t.pst.slew = s.pst.slew ∧ t.pst.armed = s.pst.armed
        ∧ SameRegsBut s t [regOff .pstGlitch])
    ∧ (ppsGlitch s.pst = false → s.pst.armed = true →
      ∃ t, exec .ppsPulse s = .next t ∧ t.pst.now = (s.reg .pstSetSec).toNat * 10^9 ∧ t.pst.state = .locked
        ∧ t.pst.isSet = true ∧ t.pst.armed = false ∧ t.reg .pstPulses = (s.reg .pstPulses).incSat 1 ∧ SameMap s t)
    ∧ (ppsGlitch s.pst = false → s.pst.armed = false → (ppsOffset s.pst.now).natAbs < 1000 →
      ∃ t, exec .ppsPulse s = .next t ∧ t.pst.now = s.pst.now ∧ t.pst.slew = -ppsOffset s.pst.now
        ∧ t.pst.state = .locked ∧ t.pst.run = [] ∧ t.reg .pstPulses = (s.reg .pstPulses).incSat 1
        ∧ SameRegsBut s t [regOff .pstPulses] ∧ SameMap s t)
    ∧ (ppsGlitch s.pst = false → s.pst.armed = false → 1000 ≤ (ppsOffset s.pst.now).natAbs →
        s.pst.run.length = 2 → (∀ x ∈ s.pst.run, (x - ppsOffset s.pst.now).natAbs ≤ 1000) →
      ∃ t, exec .ppsPulse s = .next t ∧ t.pst.now = ((s.pst.now : Int) - ppsOffset s.pst.now).toNat
        ∧ t.pst.now % 10^9 = 0 ∧ t.pst.state = .locked ∧ t.reg .pstSteps = (s.reg .pstSteps).incSat 1)
    ∧ (ppsGlitch s.pst = false → s.pst.armed = false → 1000 ≤ (ppsOffset s.pst.now).natAbs →
        (s.pst.run.length < 2 ∨ ∃ x ∈ s.pst.run, 1000 < (x - ppsOffset s.pst.now).natAbs) →
      ∃ t, exec .ppsPulse s = .next t ∧ t.pst.now = s.pst.now ∧ t.pst.state = .stepPending
        ∧ t.reg .pstSteps = s.reg .pstSteps)

/-- R497, R500, R501, R503: the holdover after 1,500 ms without a pulse, the arming of PST_SET_SEC by its register and
by PLDM, its loading with no pulse in 1,500 ms, and the snapshot that a read of PST_NOW_LO takes. R509, R512, R513: at
the end of a second each merged combination gets its REPEAT record; the Almanac pins read 0x00 while the die runs, and
the MRAM's bytes, the address wrapping, while it is OFF; a write to the window changes no byte but the record of it.
It rests on the model's choices of log entry 15. -/
def Obligations.PolestarAndAlmanacComplete : Prop :=
  (∀ s : State, s.on = true →
      (∀ a, s.pst.lastAccept = some a → a + 1500000000 ≤ s.pst.now → s.pst.state ≠ .holdover →
        ∃ t, exec .ppsHoldover s = .next t ∧ t.pst.state = .holdover ∧ t.pst.now = s.pst.now ∧ t.pst.slew = 0
          ∧ t.reg .pstHoldover = (s.reg .pstHoldover).incSat 1)
      ∧ (∃ t, exec .pstArm s = .next t ∧ t.pst = { s.pst with armed := true, armedAt := s.pst.up }
          ∧ t = { s with pst := t.pst })
      ∧ (∀ sec, ∃ t, exec (.pldmSetTai sec) s = .next t ∧ t.pst = { s.pst with armed := true, armedAt := s.pst.up }
          ∧ t.reg .pstSetSec = sec ∧ SameRegsBut s t [regOff .pstSetSec] ∧ t = { s with pst := t.pst, regs := t.regs })
      ∧ (s.pst.armed = true → s.pst.armedAt + 1500000000 ≤ s.pst.up →
        ∃ t, exec .taiSetFallback s = .next t ∧ t.pst.now = (s.reg .pstSetSec).toNat * 10^9 ∧ t.pst.armed = false
          ∧ t.pst.isSet = true)
      ∧ (∃ t, exec .pstNowRead s = .next t ∧ t.pst = { s.pst with snap := BitVec.ofNat 32 (s.pst.now / 2^32) }
          ∧ t.out = .bus (BitVec.ofNat 32 s.pst.now) :: s.out ∧ t = { s with pst := t.pst, out := t.out }))
  ∧ (∀ s : State, s.on = true →
    ∃ t, exec .repeatFlush s = .next t
      ∧ (∀ m, m ∈ t.alm.merges ↔ m ∈ s.alm.merges ∧ s.second ≤ m.second)
      ∧ (s.alm.ready = true → s.alm.stopped = false →
          t.alm.next = s.alm.next
            + BitVec.ofNat 32 (s.alm.merges.filter fun m => decide (m.second < s.second) && m.count != 0).length)
      ∧ SameMap s t ∧ t.regs = s.regs)
  ∧ (∀ (s : State) (a : BitVec 24) (n : Nat),
    ∃ t, exec (.almSpiRead a n) s = .next t ∧ t = { s with out := t.out }
      ∧ (s.on = true → t.out = .spi (List.replicate n 0) :: s.out)
      ∧ (s.on = false → ∃ l, t.out = .spi l :: s.out ∧ l.length = n
          ∧ ∀ (i : Nat) b, l[i]? = some b → b = Memory.get 0 s.alm.mram ((a.toNat + i) % 2^24)))
  ∧ (∀ (s : State) (a : BitVec 44) (v : Word) (off : Nat), s.on = true → regionOf a.toNat = .regs off →
      inAlmWindow off = true → s.alm.ready = true → s.alm.stopped = false → s.alm.merges = [] →
    ∃ t, exec (.almWindowWrite a v) s = .next t
      ∧ (∀ x, (x < 0x080000 + 64 * (s.alm.next.toNat % 131072) ∨ 0x080000 + 64 * (s.alm.next.toNat % 131072) + 64 ≤ x) →
          Memory.get 0 t.alm.mram x = Memory.get 0 s.alm.mram x)
      ∧ t.alm.next = s.alm.next + 1 ∧ SameRegsBut s t [regOff .almMerged] ∧ SameMap s t)

/-! ### Power (chapter 22) -/

/-- R404, R511, R517, R518, R529: a report of input failure drops PWR_GOOD and ends the Almanac's writing; above 44 V,
on the switching off of the rails and on a thermal shutdown whose 10 ms are over, the device is OFF: the volatile
memories and registers are gone, the non-volatile ones stay. The warnings follow the input and count their rising
edges, and a regulator's trip or a trap of resident firmware makes the module report its own failure. It rests on the
model's choices of log entries 15, 104. -/
def Obligations.PowerCommandsComplete : Prop :=
  (∀ (s : State) (mv : Int), s.on = true → s.power.inputFail = false →
    (-500 ≤ mv → mv < 36000 →
      ∃ t, exec (.inputFailure mv) s = .next t ∧ t.power.inputFail = true ∧ t.power.pwrGood = false
        ∧ t.power.vin = mv ∧ t.alm.stopped = true ∧ t.alm.lossTime = BitVec.ofNat 64 s.pst.now
        ∧ t.dev.mode = s.dev.mode ∧ SameMap s t)
    ∧ (36000 ≤ mv → mv ≤ 44000 →
      exec (.inputFailure mv) s = .next { s with power := { s.power with vin := mv } })
    ∧ (44000 < mv → mv ≤ 50000 → ∃ t, exec (.inputFailure mv) s = .next t ∧ t.dev.mode = .off ∧ t.mem = [] ∧ t.regs = []))
  ∧ (∀ s : State, s.on = true →
    (s.power.inputFail = true ∨ (∃ a, s.power.shutdownAt = some a ∧ a + 10000000 ≤ s.pst.up)) →
    ∃ t, exec (if s.power.inputFail then .railSwitchOff else .thermalShutdown) s = .next t
      ∧ t.dev.mode = .off ∧ t.mem = [] ∧ t.regs = [] ∧ t.harts = [] ∧ t.cores = [] ∧ t.tallies = []
      ∧ t.power.railsGood = false ∧ t.alm.mram = s.alm.mram ∧ t.dev.flashA = s.dev.flashA ∧ t.dev.flashB = s.dev.flashB
      ∧ t.dev.fuseSvn = s.dev.fuseSvn ∧ t.dev.serial = s.dev.serial ∧ t.pending = s.pending)
  ∧ (∀ (s : State) (mv : Int) (oc phase : Bool), s.on = true → -500 ≤ mv → mv ≤ 50000 →
    ∃ t, exec (.regulatorWarning mv oc phase) s = .next t
      ∧ (t.power.vinWarn = true ↔ mv < 38000 ∨ 42000 < mv) ∧ t.power.ocWarn = oc ∧ t.power.phaseFault = phase
      ∧ t.power.vin = mv
      ∧ t.reg .pwrWarn = (s.reg .pwrWarn).incSat (((mv < 38000 ∨ 42000 < mv) && !s.power.vinWarn).toNat
          + (oc && !s.power.ocWarn).toNat + (phase && !s.power.phaseFault).toNat)
      ∧ SameRegsBut s t [regOff .pwrWarn] ∧ SameMap s t)
  ∧ (∀ s : State, s.on = true → exec .regulatorTrip s = .next { s with out := .ownFailure :: s.out })
  ∧ (∀ (s : State) (k : UnitIx) (mcause mepc mtval : DWord), s.on = true →
    ∃ t, exec (.firmwareTrap k mcause mepc mtval) s = .next t ∧ t.out = .ownFailure :: s.out
      ∧ SameRegsBut s t [regOff .almMerged] ∧ SameMap s t
      ∧ (s.alm.ready = true → s.alm.stopped = false → s.alm.merges = [] → t.alm.next = s.alm.next + 1))

/-- R520 to R524: a write of CFG is a cluster's ACLK request and no other's; a cluster moves one step toward the
highest of its four requests; a sample above the cap raises one cluster, one of the fastest of those that may go
slower, by a step, and the tenth sample 250 W below it lowers one; a die sample moves the LOGIC request at its
thresholds, and without any reading the request is 7. It rests on the model's choices of log entries 47, 48. -/
def Obligations.ClockAndTemperatureComplete : Prop :=
  (∀ (s : State) (c : ClusterIx) (v : Word), s.on = true →
    ∃ t, exec (.pwrAclkCfgWrite c v) s = .next t ∧ aclkCfg t c = v.toNat % 8
      ∧ SameRegsBut s t [regOff .pwrAclk 0 [c]] ∧ t = { s with regs := t.regs })
  ∧ (∀ (s : State) (c : ClusterIx), s.on = true →
    ∃ t, exec (.aclkStep c) s = .next t ∧ t = { s with aclk := t.aclk }
      ∧ ((s.aclkOf c).run < effStep s c → t.aclkOf c = { s.aclkOf c with run := (s.aclkOf c).run + 1 })
      ∧ (effStep s c < (s.aclkOf c).run → t.aclkOf c = { s.aclkOf c with run := (s.aclkOf c).run - 1 })
      ∧ ((s.aclkOf c).run = effStep s c → t.aclkOf c = s.aclkOf c)
      ∧ ∀ d, d ≠ c.val → t.aclkOf d = s.aclkOf d)
  ∧ (∀ (s : State) (watts ca : Nat), s.on = true →
    (capWatts s < watts → (∃ c, c < 16 ∧ (s.aclkOf c).cap < 7) →
      ∃ t c, exec (.capTick watts ca) s = .next t ∧ c < 16 ∧ (s.aclkOf c).cap < 7
        ∧ (∀ d, d < 16 → (s.aclkOf d).cap < 7 → effMhz s d ≤ effMhz s c)
        ∧ t.aclkOf c = { s.aclkOf c with cap := (s.aclkOf c).cap + 1 } ∧ (∀ d, d ≠ c → t.aclkOf d = s.aclkOf d)
        ∧ t.reg .pwrCapSteps = (s.reg .pwrCapSteps).incSat 1 ∧ t.power.pin = watts ∧ t.power.capTicks = 0)
    ∧ (watts + 250 ≤ capWatts s → 9 ≤ s.power.capTicks → (∃ c, c < 16 ∧ 0 < (s.aclkOf c).cap) →
      ∃ t c, exec (.capTick watts ca) s = .next t ∧ c < 16 ∧ 0 < (s.aclkOf c).cap
        ∧ (∀ d, d < 16 → 0 < (s.aclkOf d).cap → effMhz s c ≤ effMhz s d)
        ∧ t.aclkOf c = { s.aclkOf c with cap := (s.aclkOf c).cap - 1 } ∧ (∀ d, d ≠ c → t.aclkOf d = s.aclkOf d)
        ∧ t.reg .pwrCapSteps = (s.reg .pwrCapSteps).incSat 1 ∧ t.power.pin = watts ∧ t.power.capTicks = 0)
    ∧ (watts ≤ capWatts s → (capWatts s < watts + 250 ∨ s.power.capTicks < 9) →
      ∃ t, exec (.capTick watts ca) s = .next t ∧ t = { s with power := t.power } ∧ t.power.pin = watts
        ∧ t.power.capTicks = (if watts + 250 ≤ capWatts s then s.power.capTicks + 1 else 0)))
  ∧ (∀ (s : State) (c : ClusterIx) (reading x : Int), s.on = true → x = reading + calOffset s (16960 + 128 + 2 * c) →
    -640 ≤ x → x ≤ 2400 →
    ∃ t, exec (.dieTempSample c (some reading)) s = .next t ∧ (t.aclkOf c).temp = some x
      ∧ (1600 ≤ x → (s.aclkOf c).hotFor % 10 = 0 → (t.aclkOf c).logic = min 7 ((s.aclkOf c).logic + 1))
      ∧ (1600 ≤ x → (s.aclkOf c).hotFor % 10 ≠ 0 → (t.aclkOf c).logic = (s.aclkOf c).logic)
      ∧ (1520 ≤ x → x < 1600 → (t.aclkOf c).logic = (s.aclkOf c).logic)
      ∧ (x < 1520 → (t.aclkOf c).logic = if 99 ≤ (s.aclkOf c).coolFor then (s.aclkOf c).logic - 1 else (s.aclkOf c).logic)
      ∧ (1840 ≤ x → s.power.shutdownAt = none → t.power.shutdownAt = some s.pst.up ∧ .ownFailure ∈ t.out)
      ∧ (x < 1840 → t.power.shutdownAt = s.power.shutdownAt) ∧ (∀ d, d ≠ c.val → t.aclkOf d = s.aclkOf d))
  ∧ (∀ (s : State) (c : ClusterIx), s.on = true → (∀ d ∈ neighbours c, (s.aclkOf d).temp = none) →
    ∃ t, exec (.dieTempSample c none) s = .next t ∧ (t.aclkOf c).temp = none ∧ (t.aclkOf c).logic = 7
      ∧ ∀ d, d ≠ c.val → t.aclkOf d = s.aclkOf d)

/-! ### DRAM (chapter 8) -/

/-- R200, R204, R208, R216 to R218: a refresh of a channel that runs; the patrol scrubber's read of the next line,
corrected and counted, or kept as uncorrectable, as
the line's code says; the end of an hour, which marks a channel over its
limit; the fencing of a channel; the clearing of pending marks. R206, R209, R212, R213: the oldest report of an
uncorrectable line retires its page once: the page is out of use and to be refilled, and its entry stands at the first
erased slot of both copies of the stack's list. It rests on the model's choices of log entries 15, 45. -/
def Obligations.DramChannelsAndRetirementComplete : Prop :=
  (∀ (s : State) (ch : ChannelIx), s.on = true → chanRuns s ch = true → (s.stack (ch.val / 16)).level ≠ .critical →
    ∀ upsets, ∃ t, exec (.refresh ch upsets) s = .next t ∧ (t.chan ch).refreshed = (s.chan ch).refreshed + 1
      ∧ (∀ d, d ≠ ch.val → t.chan d = s.chan d) ∧ t.regs = s.regs ∧ t.poison = s.poison
      ∧ ((∀ e ∈ upsets, rsDecode (symErrs e.2) = some (symErrs e.2)) → (upsets.map Prod.fst).Nodup →
          (∀ e ∈ upsets, SMap.find s.dram.errs (ch * 2^25 + e.1) = none ∧ s.dram.bad.contains (ch * 2^25 + e.1) = false) →
          SameMap s t ∧ ∀ n, t.dram.bad.contains n = s.dram.bad.contains n))
  ∧ (∀ (s : State) (ch : ChannelIx) (found : SymErrs) (key a : Nat), s.on = true → chanRuns s ch = true →
      key = ch * 2^25 + (s.chan ch).scrubPos → a = lineAddr s ch (s.chan ch).scrubPos → (s.chan ch).scrubPos < 2^25 →
      State.isDram a = true → s.dramShut a = false → s.lineKey a = key →
      (if (s.chan ch).scrubPos = 0 then s.fld .drmScrub (ch.val / 16) [] 7 0 else (s.chan ch).scrubPeriod) ≠ 0 →
    ∃ t, exec (.patrolScrub ch found) s = .next t
      ∧ (t.chan ch).scrubPos = ((s.chan ch).scrubPos + 1) % linesPerChannel
      ∧ (symErrs found = [] → s.dram.bad.contains key = false → SMap.find s.dram.errs key = none →
          SameMap s t ∧ t.regs = s.regs ∧ t.dram.bad = s.dram.bad)
      ∧ (symErrs found ≠ [] → rsDecode (symErrs found) = some (symErrs found) → s.dram.bad.contains key = false → SMap.find s.dram.errs key = none →
          t.reg .drmCe (ch.val / 16) [ch.val % 16] = (s.reg .drmCe (ch.val / 16) [ch.val % 16]).incSat 1
          ∧ (t.chan ch).hourCe = (s.chan ch).hourCe + 1 ∧ SameMap s t)
      ∧ (rsDecode (symErrs found) = none → s.dram.bad.contains key = false → SMap.find s.dram.errs key = none →
          t.dram.bad.contains key = true ∧ SameMap s t
          ∧ t.reg .drmUe (ch.val / 16) [ch.val % 16] = (s.reg .drmUe (ch.val / 16) [ch.val % 16]).incSat 1
          ∧ t.dram.reports = s.dram.reports ++ [⟨ch.val, (s.chan ch).scrubPos, 1, s.taiSecond⟩]))
  ∧ (∀ s : State, s.on = true →
    ∃ t, exec .ceHourEnd s = .next t
      ∧ (∀ n, (t.chan n).hourCe = 0)
      ∧ (∀ n, (s.reg .drmCeLimit (n / 16)).toNat < (s.chan n).hourCe → (t.chan n).pending = true)
      ∧ (∀ n, (s.chan n).hourCe ≤ (s.reg .drmCeLimit (n / 16)).toNat → (s.dram.channels.map Prod.fst).Nodup →
          (t.chan n).pending = (s.chan n).pending)
      ∧ SameMap s t ∧ SameRegsBut s t [regOff .almMerged])
  ∧ (∀ (s : State) (ch : ChannelIx) (cause : FenceChannelCause), s.on = true → s.dram.live.contains ch.val = true →
      (s.chan ch).fenced = false → (cause = .rows → 8 ≤ recentRows s ch) →
    ∃ t, exec (.channelFence ch cause) s = .next t ∧ (t.chan ch).fenced = true ∧ (t.chan ch).pending = true
      ∧ ((s.chan ch).pending = false → t.dev.pend.channels = s.dev.pend.channels ||| BitVec.ofNat 256 (2^ch.val))
      ∧ (∀ p, pageOnChannel s p ch = true → pageRetired t p = true)
      ∧ ((mappedPages s).all (fun p => !pageOnChannel s p ch) = true →
          (∀ d, d ≠ ch.val → t.chan d = s.chan d) ∧ ∀ a, t.byte a = s.byte a))
  ∧ (∀ (s : State) (c : ClusterIx) (b : BitVec 16), s.on = true →
    ∃ t, exec (.mapoutClear c b) s = .next t
      ∧ (∀ i, i < 16 → (t.chan (16 * c + i)).pending = ((s.chan (16 * c + i)).pending && !b.getLsbD i)
          ∧ (t.chan (16 * c + i)).fenced = (s.chan (16 * c + i)).fenced
          ∧ t.dev.pend.channels.getLsbD (16 * c + i) = (s.dev.pend.channels.getLsbD (16 * c + i) && !b.getLsbD i))
      ∧ (∀ n, n / 16 ≠ c.val → t.chan n = s.chan n) ∧ SameMap s t ∧ t.regs = s.regs)
  ∧ (∀ (s : State) (r : UeRep) (rest : List UeRep) (a i : Nat), s.on = true → s.wf = true →
      s.dram.reports = r :: rest → r.channel < 256 → r.kind = 1 → (s.chan r.channel).fenced = false →
      s.dramEncode r.channel (r.line * 64) = some a → pageRetired s (a / 65536) = false →
      firstErased s (r.channel / 16) 4096 0 = some i →
      ∃ t, exec (.ueReport none none) s = .next t ∧ t.dram.reports = rest
        ∧ t.dram.retired = s.dram.retired ++ [(a / 65536, some s.pst.now)]
        ∧ (∀ p, p ∈ t.dram.refills ↔ p = a / 65536 ∨ p ∈ s.dram.refills)
        ∧ Memory.read 0xFF t.dev.flashA (retireBase (r.channel / 16) + 16 * i) 16 = retireEntry r.channel 1 r.line r.second
        ∧ Memory.read 0xFF t.dev.flashA (retireBase (r.channel / 16) + 16 * i + 2^20) 16 = retireEntry r.channel 1 r.line r.second
        ∧ SameMap s t)

/-- R221 to R226: a sample of a stack's sensors is their greatest valid reading; a level holds from its entry
temperature until 5 °C below it; HOT asks for an ACLK step, CRITICAL takes the stack offline and reports the module's
failure. In HOT a rise within 10 ms asks for a further step, after it the request falls step by step, and a stack
below 95 °C long enough comes back online. -/
def Obligations.StackHeatComplete : Prop :=
  (∀ (s : State) (st : ClusterIx) (readings : List (Option Int)) (x : Int), s.on = true → readings.length = 4 →
      (∃ (k : Nat) (y : Int), readings[k]? = some (some y) ∧ x = y + calOffset s (16960 + 8 * st + 2 * k)) →
      sensorValid x = true →
      (∀ (k : Nat) (y : Int), readings[k]? = some (some y) → sensorValid (y + calOffset s (16960 + 8 * st + 2 * k)) = true →
        y + calOffset s (16960 + 8 * st + 2 * k) ≤ x) →
    ∃ t, exec (.stackTempSample st readings) s = .next t ∧ (t.stack st).temp = some x
      ∧ (∀ k, 1 ≤ k → k ≤ 3 →
          (entryTemp k ≤ x → k ≤ (t.stack st).level.num)
          ∧ (x < entryTemp k - 80 → (t.stack st).level.num < k)
          ∧ (entryTemp k - 80 ≤ x → x < entryTemp k → (k ≤ (t.stack st).level.num ↔ k ≤ (s.stack st).level.num)))
      ∧ (1520 ≤ x → x < 1680 → (s.stack st).level.num < 2 →
          (t.aclkOf st).dram = min 7 ((s.aclkOf st).dram + 1) ∧ (otherHot s st = false → .slowNotice 1 1 s.pst.now ∈ t.out))
      ∧ (1680 ≤ x → (s.stack st).level.num < 3 → (t.stack st).offline = true ∧ .ownFailure ∈ t.out)
      ∧ (∀ d, d ≠ st.val → t.stack d = s.stack d) ∧ SameMap s t)
  ∧ (∀ (s : State) (st : ClusterIx), s.on = true → (s.stack st).level = .hot → (s.stack st).lastStepAt + 10000000 ≤ s.pst.up →
    ∃ t, exec (.hotStepTick st) s = .next t ∧ (t.stack st).lastStepAt = s.pst.up
      ∧ (t.aclkOf st).dram = (if (s.stack st).lastStepTemp < (s.stack st).temp.getD (s.stack st).lastStepTemp
          then min 7 ((s.aclkOf st).dram + 1) else (s.aclkOf st).dram)
      ∧ (∀ d, d ≠ st.val → t.stack d = s.stack d ∧ t.aclkOf d = s.aclkOf d) ∧ SameMap s t)
  ∧ (∀ (s : State) (c : ClusterIx), s.on = true → (s.stack c).falling = true → (s.stack c).lastFallAt + 100000000 ≤ s.pst.up →
    ∃ t, exec (.dramRequestFall c) s = .next t ∧ (t.aclkOf c).dram = (s.aclkOf c).dram - 1
      ∧ (t.stack c).lastFallAt = s.pst.up ∧ ((t.stack c).falling = true ↔ 1 < (s.aclkOf c).dram)
      ∧ (∀ d, d ≠ c.val → t.stack d = s.stack d ∧ t.aclkOf d = s.aclkOf d) ∧ SameMap s t)
  ∧ (∀ (s : State) (st : ClusterIx), s.on = true → (s.stack st).offline = true → (s.stack st).below95.isSome = true →
    ∃ t, exec (.stackOnline st) s = .next t ∧ (t.stack st).offline = false
      ∧ (∀ p ∈ s.dram.stale, (∃ i, i < 16 ∧ pageOnChannel s p (16 * st + i) = true) →
          (∀ q ∈ s.dram.stale, mappers s q = []) → p ∈ t.dram.refills ∧ pageRetired t p = true ∧ p ∉ t.dram.stale)
      ∧ (∀ d, d ≠ st.val → t.stack d = s.stack d))

/-! ### Serving (chapters 10 to 12) -/

/-- R260, R264 to R268, R308, R357: at a step boundary the ENDING slots are free; at the scheduler the first
request of the queue that fits on every module that it needs takes the lowest free slot, and another module takes the
step that the scheduler has formed; while every pool is paused a boundary admits none; a request queued for
ADMIT_MS ends with TIMEOUT; a slow-member notice marks or clears its module. It rests on the model's choices of log
entries 62, 63. -/
def Obligations.AdmissionComplete : Prop :=
  (∀ s : State, s.on = true → s.plan.isSome = true → s.serving.running = false →
    (isScheduler s = true → ∃ t, exec (.stepBoundary {}) s = .next t
      ∧ (∀ i x, slot? t i = some x → (∃ y, slot? s i = some y ∧ y.state ≠ .ending ∧ y.req = x.req)
          ∨ ∃ q ∈ s.serving.queue, q.req = x.req)
      ∧ t.serving.lastBoundary = s.pst.up ∧ t.serving.step = s.serving.step
      ∧ (∀ (q : Queued) rest (p : PoolPlan), s.serving.slots = [] → s.serving.queue = q :: rest → q.home = none →
          s.insts = [] → s.serving.adapters = [] → planPool s q.req.pool = some p → poolPaused s q.req.pool = false →
          0 < p.slots → (∀ pos ∈ needsOf s p q.req, reservationAt s p q.req pos ≤ kvPagesAt s pos) →
          ∃ x, slot? t 0 = some x ∧ x.req = q.req ∧ x.pages = reservation s p q.req ∧ x.admitStep = s.serving.step
            ∧ x.admitTime = s.pst.now ∧ x.home = s.dev.position ∧ ∀ y ∈ t.serving.queue, y.req.reqId ≠ q.req.reqId))
    ∧ (isScheduler s = false → ∀ news : SheafNews, ∃ t, exec (.stepBoundary news) s = .next t
      ∧ t.serving.step = news.step ∧ t.serving.lastBoundary = s.pst.up ∧ (t.serving.running = true ↔ news.rows ≠ [])))
  ∧ (∀ s : State, s.on = true → allPaused s = true → s.serving.running = false →
    ∀ news : SheafNews, ∃ t, exec (.pausedBoundaryTick news) s = .next t ∧ (∀ i x, slot? t i = some x → x.state ≠ .ending)
      ∧ t.serving.lastBoundary = s.pst.up ∧ t.serving.running = false
      ∧ (news = {} → (t.serving.queue.filter (·.home.isNone)).map (·.req)
          = (s.serving.queue.filter (·.home.isNone)).map (·.req)))
  ∧ (∀ (s : State) (id : DWord) (q : Queued) (p : PoolPlan), s.on = true → queuedReq s id = some q →
      planPool s q.req.pool = some p → p.admitMs * 10^6 ≤ admitRan s q →
    ∃ t, exec (.admitTimeout id) s = .next t ∧ queuedReq t id = none ∧ hasEnded t id = true
      ∧ Told s t q.req.session ⟨0x13, .timeout, 0, id, terminalBody 5 0 0 0 0 0 0⟩
      ∧ t.serving.slots = s.serving.slots ∧ SameMap s t)
  ∧ (∀ (s : State) (m : ModuleId) (reason : Byte) (time : DWord), s.on = true → s.fenced.contains m.toNat = false →
    (∃ t, exec (.slowMemberNotice m 1 reason time) s = .next t
      ∧ (∀ x, x ∈ t.router.slow ↔ x = m.toNat ∨ x ∈ s.router.slow) ∧ t = { s with router := t.router })
    ∧ (∃ t, exec (.slowMemberNotice m 0 reason time) s = .next t
      ∧ (∀ x, x ∈ t.router.slow ↔ x ≠ m.toNat ∧ x ∈ s.router.slow) ∧ t = { s with router := t.router }))

/-- R255, R267, R272 to R277: a token that a slot of the running step owes is the one that SAMPLE draws with the
slot's parameters and counter; it is committed, told to its session, and ends the sequence when it is its last; poison
in the sequence's own pages commits nothing and sets it to rebuild every position into fresh pages, and other poison
holds the step; the step ends when no token is owed, its number rises by 1, and what was placed is held; a cancel
notice ends a sequence and masks its rows. It rests on the model's choices of log entries 64, 65, 126. -/
def Obligations.TokensAndStepEndComplete : Prop :=
  (∀ (s : State) (i : BitVec 14) (r : SampleRun) (x : Slot), s.on = true → slot? s i.toNat = some x →
      s.serving.running = true → homedHere s x = true → x.samples = true → x.committed = false → x.masked = false → x.state ≠ .ending →
      poolHeld s x.req.pool = false → (∀ y, session? s x.req.session = some y → y.conn.isSome = true) →
    (∀ w, r.kvPoison = false → r.poisoned = false → slotSample x r.logits = some w →
      ∃ t y, exec (.tokenCommit i r) s = .next t ∧ slot? t i.toNat = some y ∧ y.generated = x.generated + 1
        ∧ (endsWith x w.token = 0 → y.state = .decode ∨ x.state ≠ .prefill ∧ y.state = x.state)
        ∧ (endsWith x w.token ≠ 0 → y.state = .ending ∧ y.end_ = endsWith x w.token ∧ hasEnded t x.req.reqId = true)
        ∧ Told s t x.req.session ⟨0x12, .ok, 0, 0, leBytes 2 1 ++ leBytes 6 0 ++ (leBytes 8 x.req.reqId.toNat
            ++ leBytes 4 x.generated ++ leBytes 4 w.token.toNat ++ leBytes 4 w.logpFull.toNat
            ++ leBytes 4 (x.mixed.toNat + 2 * x.suspect.toNat + (if endsWith x w.token = 0 then 0 else 4)))⟩
        ∧ (0 < storeCap s (poolInst s x.req.pool) → ∃ z ∈ (inst t (poolInst s x.req.pool)).store,
            z.seq = (inst s (poolInst s x.req.pool)).nextSeq ∧ z.reqId = x.req.reqId ∧ z.token = w.token
            ∧ z.index = x.generated ∧ z.policy = x.policy)
        ∧ (∀ j, j ≠ i.toNat → slot? t j = slot? s j))
    ∧ (r.kvPoison = true →
      ∃ t y, exec (.tokenCommit i r) s = .next t ∧ slot? t i.toNat = some y ∧ y.generated = x.generated
        ∧ y.fill = x.req.promptLen + x.generated ∧ y.held = 0 ∧ (∀ l ∈ y.lists, l.first = []) ∧ y.committed = false ∧ t.service = s.service ∧ t.insts = s.insts
        ∧ (∀ j, j ≠ i.toNat → slot? t j = slot? s j))
    ∧ (r.kvPoison = false → r.poisoned = true →
      ∃ t y, exec (.tokenCommit i r) s = .next t ∧ slot? t i.toNat = some y ∧ y.generated = x.generated
        ∧ y.committed = false ∧ poolHeld t x.req.pool = true ∧ t.service = s.service))
  ∧ (∀ s : State, s.on = true → s.serving.running = true → (∀ x ∈ s.serving.slots, owesToken s x.2 = false) →
      (∀ x ∈ s.insts, x.2.hold = none) →
    ∃ t, exec (.stepEnd {}) s = .next t ∧ t.serving.running = false ∧ t.serving.step = s.serving.step + 1
      ∧ (∀ i x, slot? s i = some x → x.state ≠ .ending → slot? t i = some (afterStep x))
      ∧ (∀ i x, slot? t i = some x → x.state ≠ .ending) ∧ SameMap s t)
  ∧ (∀ (s : State) (i : BitVec 14) (x : Slot), s.on = true → slot? s i.toNat = some x → x.state ≠ .ending →
    ∃ t y, exec (.cancelNotice i) s = .next t ∧ slot? t i.toNat = some y ∧ y.state = .ending ∧ y.end_ = 3
      ∧ y.endStatus = .cancelled ∧ y.masked = true ∧ (∀ j, j ≠ i.toNat → slot? t j = slot? s j)
      ∧ t = { s with serving := t.serving })

/-- R284, R285, R286: poison in shared weights, or in an adapter version of which a clean copy exists, holds the step
of its instance; when every affected page is refilled, and not before, the held step is issued again under its number;
an instance without a clean copy for 5 s is UNAVAILABLE, and its requests end with WEIGHT_LOST. R303, R304: the scrub
of a resident tensor whose shard agrees with the version table notes the time; one that does not is counted and holds
the instance's steps, and the samples since its last matching check are SUSPECT. It rests on the model's choices of
log entry 15. -/
def Obligations.WeightPoisonAndScrubComplete : Prop :=
  (∀ (s : State) (i : Nat), s.on = true →
      (∀ pages adapters, (planInst s i).isSome = true → pages ≠ [] → (∀ a ∈ adapters, a.clean = true) →
        ∃ t h, exec (.weightPoison i pages adapters) s = .next t ∧ inst t i = { inst s i with hold := some h }
          ∧ h.at_ = ((inst s i).hold.map (·.at_)).getD s.pst.up ∧ h.pages ≠ []
          ∧ (∀ p, pages = [p] → mappers s p = [] → p ∈ h.pages) ∧ (∀ a ∈ adapters, (a.id, a.version) ∈ h.adapters)
          ∧ (∀ j, j ≠ i → inst t j = inst s j) ∧ t.serving.slots = s.serving.slots ∧ t.serving.queue = s.serving.queue)
      ∧ (∀ h refills, (inst s i).hold = some h → (∀ p ∈ h.pages, ∃ e ∈ refills, e.1 = p) →
        ∃ t rows, exec (.stepReissue i refills) s = .next t ∧ inst t i = { inst s i with hold := none }
          ∧ t.out = .stepList s.serving.step rows :: s.out ∧ t.serving.slots = s.serving.slots
          ∧ t.serving.step = s.serving.step
          ∧ t.reg .supSrvReissue = (s.reg .supSrvReissue).incSat 1
          ∧ (∀ r ∈ rows, ∃ x ∈ s.serving.slots, x.1 = r.1 ∧ poolInst s x.2.req.pool = i ∧ x.2.placed ≠ 0))
      ∧ (∀ h refills p, (inst s i).hold = some h → p ∈ h.pages → (∀ e ∈ refills, e.1 ≠ p) →
        ∃ t h', exec (.stepReissue i refills) s = .next t ∧ (inst t i).hold = some h' ∧ p ∈ h'.pages
          ∧ (∀ q ∈ h'.pages, q ∈ h.pages) ∧ t.out = s.out)
      ∧ (∀ h, (inst s i).hold = some h → (h.pages ≠ [] ∨ h.adapters = []) → h.at_ + 5 * 10^9 ≤ s.pst.up →
        ∃ t, exec (.repairTimeout i) s = .next t ∧ (inst t i).phase = .unavailable ∧ (inst t i).hold = none
          ∧ (∀ j x, slot? s j = some x → poolInst s x.req.pool = i → x.state ≠ .ending →
              homedHere s x = true →
              ∃ y, slot? t j = some y ∧ y.state = .ending ∧ y.endStatus = .weightLost)
          ∧ (∀ q ∈ t.serving.queue, q.home = none → poolInst s q.req.pool ≠ i)))
  ∧ (∀ (s : State) (i tensor : Nat) (b : List Byte) (v : Version) (e : VerTensor), s.on = true →
      s.fld .supWsScrub 0 [] 15 0 ≠ 0 → ownShard s tensor = none → (inst s i).current = some v →
      v.tensors.find? (fun x => x.tensor = tensor) = some e →
      (some (fingerprint b) = e.shardFps[s.dev.position]? →
        ∃ t w f, exec (.weightScrub i tensor b) s = .next t ∧ (inst t i).current = some w ∧ w.num = v.num
          ∧ w.tensors.find? (fun x => x.tensor = tensor) = some f ∧ f.checkedAt = s.pst.now ∧ f.shardFps = e.shardFps
          ∧ t.regs = s.regs ∧ (inst t i).store = (inst s i).store)
      ∧ (some (fingerprint b) ≠ e.shardFps[s.dev.position]? →
        ∃ t, exec (.weightScrub i tensor b) s = .next t ∧ t.reg .supWsMismatch = (s.reg .supWsMismatch).incSat 1
          ∧ (inst t i).store = (inst s i).store.map (fun r => if e.checkedAt ≤ r.time then { r with flags := r.flags ||| 2 } else r)
          ∧ t.reg .supWsSuspect = (s.reg .supWsSuspect).incSat
              (((inst s i).store.filter fun r => decide (e.checkedAt ≤ r.time)).length)))

/-! ### The headland turn and the weight scrub (chapters 12 and 13) -/

/-- R314 to R321, R326, R327: a turn starts at t0 with its phase decided and its memory forced where a module has too
few pages; a shard whose fingerprint agrees is taken, one that agrees on the second fetch is counted and taken, one
that never does abandons the turn; with READY from all the new version commits; past TURN_MS the turn is abandoned. It
rests on the model's choices of log entries 15, 69. -/
def Obligations.TurnCommandsComplete : Prop :=
  (∀ (s : State) (i : Nat) (rooms : List RoomReport) (p : InstancePlan), s.on = true → planInst s i = some p →
      (cycle? s i).isSome = true → (inst s i).turn = none → (inst s i).commit = none →
      ((inst s i).retry = true ∨ phaseOf s i = .learning ∧ learned s p = true) → trainedTensors p ≠ [] →
      curVer (inst s i) + 1 ≠ 0xFFFFFFFF#32 → (∀ y ∈ s.thresher.shards, (amaxOf y.half.master).isSome = true) →
    ∀ resident, ∃ t u, exec (.turnStart i rooms resident) s = .next t ∧ (inst t i).turn = some u ∧ u.t0 = s.pst.now
      ∧ (u.forced = true ↔ ∃ r ∈ rooms, r.freePages < r.needPages) ∧ (u.forced = true → .turnForced i ∈ t.out)
      ∧ phaseOf t i = .turning ∧ (inst t i).retry = false ∧ u.retry = (inst s i).retry
      ∧ (resident = [] → (inst t i).current = (inst s i).current) ∧ (∀ j, j ≠ i → inst t j = inst s j) ∧ SameMap s t)
  ∧ (∀ (s : State) (i : Nat) (p : InstancePlan), s.on = true → planInst s i = some p →
      (trainedTensors p) = [] → (cycle? s i).isSome = true → (inst s i).turn = none → (inst s i).commit = none →
      (inst s i).retry = true →
    ∃ t, exec (.turnStart i [] []) s = .next t ∧ (inst t i).turn = none ∧ phaseOf t i = .generation
      ∧ fieldAt (inst t i).lastTurn 10 1 = statusCode .zero)
  ∧ (∀ (s : State) (i tensor : Nat) (pos : Fin 8) (info : ShardInfo) (data again : List Byte) (p : InstancePlan) (u : Turn)
      (fp : DWord), s.on = true → planInst s i = some p → (inst s i).turn = some u → pos.val = s.dev.position →
      u.have_.contains tensor = false → (∃ x ∈ trainedTensors p, x.id = tensor) → info.shardFps[pos.val]? = some fp →
    (fingerprint data = fp →
      ∃ t v, exec (.shardArrive i tensor pos info data again) s = .next t ∧ (inst t i).turn = some v
        ∧ v.table = u.table ++ [⟨tensor, info.scale, info.fp, info.shardFps, s.pst.now⟩]
        ∧ (∀ x, x ∈ v.have_ ↔ x = tensor ∨ x ∈ u.have_) ∧ v.refetch = u.refetch
        ∧ t.reg .supWsMismatch = s.reg .supWsMismatch
        ∧ ((∀ x ∈ trainedTensors p, x.id = tensor ∨ u.have_.contains x.id = true) → .ready i ∈ t.out))
    ∧ (fingerprint data ≠ fp → fingerprint again = fp →
      ∃ t v, exec (.shardArrive i tensor pos info data again) s = .next t ∧ (inst t i).turn = some v
        ∧ v.table = u.table ++ [⟨tensor, info.scale, info.fp, info.shardFps, s.pst.now⟩] ∧ v.refetch = u.refetch + 1
        ∧ t.reg .supWsMismatch = (s.reg .supWsMismatch).incSat 1)
    ∧ (fingerprint data ≠ fp → fingerprint again ≠ fp → u.forced = false →
      ∃ t, exec (.shardArrive i tensor pos info data again) s = .next t ∧ (inst t i).turn = none
        ∧ (inst t i).turnsAbandoned = Word.incSat (inst s i).turnsAbandoned 1 ∧ phaseOf t i = .generation
        ∧ (inst t i).current = (inst s i).current ∧ fieldAt (inst t i).lastTurn 10 2 = statusCode .sigFail + 256 * 2))
  ∧ (∀ (s : State) (i : Nat) (p : InstancePlan) (u : Turn), s.on = true → planInst s i = some p →
      (inst s i).turn = some u → turnReady s i u = true →
    ∃ t v, exec (.turnCommit i) s = .next t ∧ (inst t i).turn = none ∧ (inst t i).commit = some v
      ∧ v.num = curVer (inst s i) + 1 ∧ (∀ e ∈ u.table, e ∈ v.tensors) ∧ (inst t i).current = (inst s i).current
      ∧ t.out = .turnCommit i v.num :: s.out
      ∧ (∀ x ∈ t.thresher.shards, (∃ z ∈ p.tensors, z.id = x.tensor) → x.lagging = false))
  ∧ (∀ (s : State) (i : Nat) (u : Turn), s.on = true → (inst s i).turn = some u → s.nwt.eclipse = .none →
      u.upAt + u.stood + turnMs s i * 10^6 ≤ s.pst.up → u.forced = false →
    ∃ t, exec (.turnTimeout i) s = .next t ∧ (inst t i).turn = none ∧ phaseOf t i = .generation
      ∧ (inst t i).turnsAbandoned = Word.incSat (inst s i).turnsAbandoned 1
      ∧ fieldAt (inst t i).lastTurn 10 1 = statusCode .timeout)

/-! ### Collectives (chapter 14) -/

/-- R344 to R347, R350, R352, R388: a join that passes its checks is taken: its descriptor and data stand among the
arrivals of the open instance, which opens if it was not, or wait for the next; one that fails a check of R350 is
taken and ends at once with the status of the check. It rests on the model's choices of log entries 43, 70. -/
def Obligations.JoinsComplete : Prop :=
  ∀ op ∈ joinCommands, ∀ (s : State) (k : CoreIx), JoinWaits s k →
    (∀ (p : CollPlan) (u : State) (b table : List Byte) (bad : List Nat), (joinD (nextJoin s k)).opcode = op.1 →
        joinCheck s k (joinD (nextJoin s k)) = none → planColl s (joinD (nextJoin s k)).coll = some p →
        joinHeld s (joinD (nextJoin s k)) = false →
        tierPage s k (joinD (nextJoin s k)).src (joinBytes (joinD (nextJoin s k))) = none →
        joinData (tookJoin s k) k (joinD (nextJoin s k)) = (u, b, bad, table, none) →
        (∀ x ∈ (collOf s p.id).cur, x.member ≠ (joinD (nextJoin s k)).member) →
        (∀ x ∈ (collOf s p.id).ahead, x.member ≠ (joinD (nextJoin s k)).member) →
      (instAhead (collOf s p.id) (joinD (nextJoin s k)).inst = 0 →
        ∃ t, exec (op.2 k) s = .next t ∧ joinsTaken t k = joinsTaken s k + 1
          ∧ (collOf t p.id).isOpen = true ∧ (collOf t p.id).inst = (joinD (nextJoin s k)).inst
          ∧ (collOf t p.id).cur = (collOf s p.id).cur
              ++ [⟨(joinD (nextJoin s k)).member, nextJoin s k, b, bad, table, some (k.val, joinsTaken s k)⟩])
      ∧ (instAhead (collOf s p.id) (joinD (nextJoin s k)).inst = 1 →
        ∃ t, exec (op.2 k) s = .next t ∧ joinsTaken t k = joinsTaken s k + 1
          ∧ (collOf t p.id).ahead = (collOf s p.id).ahead
              ++ [⟨(joinD (nextJoin s k)).member, nextJoin s k, b, bad, table, some (k.val, joinsTaken s k)⟩]))
    ∧ (∀ st detail, (joinD (nextJoin s k)).opcode = op.1 → joinCheck s k (joinD (nextJoin s k)) = some (st, detail) →
        detail < 256 →
      ∃ t, exec (op.2 k) s = .next t ∧ joinsTaken t k = joinsTaken s k + 1
        ∧ t.bytes (joinArea k + 1024 + 32 * (joinsTaken s k % 16)) 3
            = [BitVec.ofNat 8 (statusCode st), BitVec.ofNat 8 detail, BitVec.ofNat 8 op.1]
        ∧ t.router.colls = s.router.colls)

/-- R351 to R353, R356: an instance with every member's data closes: the next one is expected, and its joins end with
OK, or with ZERO when it carried no element; at the deadline an instance that is no STEP ends with TIMEOUT; data of a
STEP that comes after the close is gleaned for the next instance, once for a member, and dropped when it is older. It
rests on the model's choices of log entries 15, 70. -/
def Obligations.InstanceCloseComplete : Prop :=
  ∀ (s : State) (c : BitVec 12) (p : CollPlan), s.on = true → planColl s c.toNat = some p →
    (∀ h, InstanceAgrees s p h → missing p (collOf s p.id) (fun _ => true) = [] →
      ∃ t, exec (.instanceClose c []) s = .next t ∧ (collOf t p.id).inst = (collOf s p.id).inst + 1
        ∧ (collOf t p.id).closed = (collOf s p.id).closed + 1 ∧ (collOf t p.id).cur = (collOf s p.id).ahead
        ∧ (collOf t p.id).isOpen = !(collOf s p.id).ahead.isEmpty
        ∧ (collOf t p.id).lastEnd = (if (joinD h.desc).total = 0
            ∧ (∀ x ∈ (collOf s p.id).cur, (joinD x.desc).count = 0) then .zero else .ok))
    ∧ (∀ h, InstanceAgrees s p h → p.step = false → isTervar s p = false →
        missing p (collOf s p.id) (fun _ => true) ≠ [] →
        (collOf s p.id).openAt + deadlineOf s p (collOf s p.id) ≤ s.pst.up →
      ∃ t, exec (.collectiveDeadline c []) s = .next t ∧ (collOf t p.id).inst = (collOf s p.id).inst + 1
        ∧ (collOf t p.id).lastEnd = .timeout ∧ (collOf t p.id).cur = (collOf s p.id).ahead
        ∧ t.reg .thrCollTimeout = (if p.point.isSome then (s.reg .thrCollTimeout).incSat 1 else s.reg .thrCollTimeout))
    ∧ (∀ (i : Word) (j : RemoteJoin), p.step = true → isTervar s p = false → (joinD j.desc).inst = i →
        memberFenced s p j.member = false →
      (instAhead (collOf s p.id) i = -1 → (∀ y ∈ (collOf s p.id).gleaned, y.member ≠ j.member) →
        ∃ t, exec (.lateContribution c i j) s = .next t
          ∧ (collOf t p.id).gleaned = (collOf s p.id).gleaned ++ [remoteContrib j]
          ∧ (collOf t p.id).cur = (collOf s p.id).cur
          ∧ t.reg .thrCollGleaned = (if p.point.isSome then (s.reg .thrCollGleaned).incSat 1 else s.reg .thrCollGleaned)
          ∧ SameMap s t)
      ∧ (instAhead (collOf s p.id) i < -1 →
        ∃ t, exec (.lateContribution c i j) s = .next t ∧ (collOf t p.id).gleaned = (collOf s p.id).gleaned
          ∧ (collOf t p.id).cur = (collOf s p.id).cur
          ∧ t.reg .thrCollDropped = (if p.point.isSome then (s.reg .thrCollDropped).incSat 1 else s.reg .thrCollDropped)
          ∧ SameMap s t))

/-- R84, R85: an ORDERED result does not depend on the order in which its members' data arrived. -/
def Obligations.OrderedReductionIgnoresArrivalOrder : Prop :=
  ∀ (d : JoinD) (ms : List (List Nat)) (gleaned cur cur' : List Contrib) (i : Nat), isReduction d.opcode = true → cur.Perm cur' →
    (cur.map (·.member)).Nodup → resultElem d true ms gleaned cur i = resultElem d true ms gleaned cur' i

/-! ### The thresher (chapter 15) -/

/-- R364, R367, R380, R381: outside a turn an update begins for the earliest gradient that a shard keeps, its journal
record leaves for the buddy, and, with a region of the shadow pool free and nothing poisoned, an ELEM update computes
the new half; the half in use stands. The flip then makes the new half the one in use and clears the gradient. It rests
on the model's choices of log entries 54, 56, 57. -/
def Obligations.ShardUpdateAndFlipComplete : Prop :=
  ∀ (s : State) (tensor : Nat) (x : Shard), s.on = true → ownShard s tensor = some x →
    (∀ (t : Nat) (g : Grad), x.upd = none → s.fld .thrCtrl 0 [] 0 0 = 1 → inTurn s tensor = false →
        lowest (x.grads.filterMap fun g => g.map (·.step)) = some t → x.grad t = some g →
      ∃ v y u, exec (.shardUpdate tensor) s = .next v ∧ ownShard v tensor = some y ∧ y.upd = some u ∧ u.step = t
        ∧ y.half = x.half ∧ y.epoch = x.epoch ∧ y.step = x.step ∧ y.grads = x.grads
        ∧ (∀ b, buddyOf s = some b → s.fenced.contains b = false → s.dev.mode ≠ .failed →
            .journal b (journalHeader x t g (tensorImage g.fmt g.elems)) (tensorImage g.fmt g.elems) ∈ v.out)
        ∧ (x.halves.length = 2 → g.poison = false → x.poison = false → matrixRule (shardRule s x) = false →
            poolUsed s + slotBytes x ≤ poolBytes s →
            y.halves.getD ((x.epoch.toNat + 1) % 2) {}
                = newHalf (shardRule s x) (Up.rate (match s.plan with
                    | some p => p.schedules.getD (shardRule s x).sched []
                    | none => []) t) t (s.freeCtr + 1) x x.half (g.elems.map fun w => (F.round (elemVal g.fmt w)).1)
            ∧ u.next = some (masterFpOf (y.halves.getD ((x.epoch.toNat + 1) % 2) {}).master)))
    ∧ (∀ (u : Upd) (fp : DWord), x.upd = some u → u.next = some fp → s.fld .thrCtrl 0 [] 1 1 = 0 → x.poison = false →
        flipWaits s x u = false →
      ∃ v y, exec (.shardFlip tensor) s = .next v ∧ ownShard v tensor = some y ∧ y.epoch = x.epoch + 1
        ∧ y.step = BitVec.ofNat 64 u.step ∧ y.masterFp = fp ∧ y.upd = none ∧ y.halves = x.halves
        ∧ y.settled = max x.settled (u.step + 1) ∧ v.reg .thrUpdDone = (s.reg .thrUpdDone).incSat 1
        ∧ v.reg .thrJrnlUnack = (if x.acked u.step then s.reg .thrJrnlUnack else (s.reg .thrJrnlUnack).incSat 1)
        ∧ SameMap s v)

/-- R377, R379, R383 to R387, R389: the thresher takes the update constellation once every core's reservation has
arrived; a journal record that verifies is kept and acknowledged; an acknowledgement and the end of the wait are noted;
a stopped update is done again, and one whose member failed goes on with another member, and after its third stop its
shard is LAGGING; THR_CTRL's bits take their values. It rests on the model's choices of log entries 15, 56, 59. -/
def Obligations.ThresherCommandsComplete : Prop :=
  (∀ (s : State) (p : ThresherPlan), s.on = true → thresherPlan s = some p → updCores p ≠ 0 → s.thresher.held = false →
      State.atLeast (s.tally p.rsv) (BitVec.ofNat 32 ((s.thresher.windows + 1) * updCores p)) = true →
    ∃ t, exec .updConstellationTake s = .next t ∧ t.thresher.windows = s.thresher.windows + 1
      ∧ ((∃ x ∈ s.thresher.shards, matrixRule (shardRule s x) = true) → t.thresher.held = true ∧ t.tallies = s.tallies)
      ∧ ((∀ x ∈ s.thresher.shards, matrixRule (shardRule s x) = false) → t.thresher.held = false
          ∧ t.tally p.ret = s.tally p.ret + BitVec.ofNat 32 (updCores p) ∧ SameTalliesBut s t p.ret))
  ∧ (∀ (s : State) (owner : ModuleId) (j : JournalMsg), s.on = true → buddyOf s = some owner.toNat →
      s.fenced.contains owner.toNat = false → headerGood j.header = true → j.image.length = fieldAt j.header 24 8 →
      (fingerprint j.image).toNat = fieldAt j.header 32 8 → (s.ownId ≠ some owner.toNat ∨ s.nwt.takeovers = []) →
    ∃ t, exec (.journalRecord owner j) s = .next t
      ∧ (∃ r ∈ t.thresher.journal, r.owner = owner.toNat ∧ r.tensor = fieldAt j.header 0 4 ∧ r.step = fieldAt j.header 8 8
          ∧ r.header = j.header ∧ r.image = j.image)
      ∧ t.out = .journalAck owner.toNat (fieldAt j.header 0 4) (fieldAt j.header 8 8) :: s.out
      ∧ t.thresher.shards = s.thresher.shards ∧ SameMap s t)
  ∧ (∀ (s : State) (tensor : Nat) (step : DWord) (x : Shard), s.on = true → ownShard s tensor = some x →
      (∃ e ∈ x.sent, e.step = step.toNat ∧ e.acked = false) →
    ∃ t y, exec (.journalAck tensor step) s = .next t ∧ ownShard t tensor = some y ∧ y.acked step.toNat = true
      ∧ t.reg .thrJrnlSent = (s.reg .thrJrnlSent).incSat 1 ∧ y.halves = x.halves ∧ SameMap s t)
  ∧ (∀ (s : State) (tensor : Nat) (p : ThresherPlan) (x : Shard) (u : Upd), s.on = true → thresherPlan s = some p →
      ownShard s tensor = some x → x.upd = some u → u.sentAt + p.jrnlWaitMs * 10^6 ≤ s.pst.up →
    ∃ t y, exec (.jrnlWaitTimeout tensor) s = .next t ∧ ownShard t tensor = some y
      ∧ y.upd = some { u with waitOver := true } ∧ flipWaits t y { u with waitOver := true } = false ∧ t.regs = s.regs)
  ∧ (∀ (s : State) (tensor : Nat) (x : Shard) (u : Upd), s.on = true → ownShard s tensor = some x → x.upd = some u →
    (u.redos < 2 → (x.grad u.step).any (·.poison) = false →
      ∃ t y v, exec (.updateRedo tensor .constellation) s = .next t ∧ ownShard t tensor = some y ∧ y.upd = some v
        ∧ v.step = u.step ∧ v.redos = u.redos + 1 ∧ y.redo = true ∧ y.half = x.half ∧ y.epoch = x.epoch
        ∧ t.reg .thrRedo = (s.reg .thrRedo).incSat 1)
    ∧ (∀ k : CoreIx, s.thresher.held = true → matrixRule (shardRule s x) = true → otherMember s k = true →
      ∃ t, exec (.updateRedo tensor (.memberFault k)) s = .next t ∧ t.dev.pend.cores.getLsbD k = true
        ∧ t.thresher = s.thresher ∧ t.regs = s.regs ∧ SameMap s t)
    ∧ (2 ≤ u.redos → ∀ cause, (∀ k, cause ≠ .memberFault k) →
      ∃ t y, exec (.updateRedo tensor cause) s = .next t ∧ ownShard t tensor = some y ∧ y.upd = none ∧ y.lagging = true
        ∧ y.halves = x.halves ∧ y.epoch = x.epoch ∧ y.step = x.step ∧ y.settled = max x.settled (u.step + 1)))
  ∧ (∀ (s : State) (b : Bool), s.on = true →
    (∃ t, exec (.thrHoldFlips b) s = .next t ∧ t = { s with regs := t.regs } ∧ t.fld .thrCtrl 0 [] 1 1 = b.toNat
      ∧ t.fld .thrCtrl 0 [] 0 0 = s.fld .thrCtrl 0 [] 0 0 ∧ SameRegsBut s t [regOff .thrCtrl])
    ∧ (∃ t, exec (.thrEnable b) s = .next t ∧ t = { s with regs := t.regs } ∧ t.fld .thrCtrl 0 [] 0 0 = b.toNat
      ∧ t.fld .thrCtrl 0 [] 1 1 = s.fld .thrCtrl 0 [] 1 1 ∧ SameRegsBut s t [regOff .thrCtrl]))

/-! ### Nightwatch (chapter 16) -/

/-- R390, R391, R396 to R401, R444: the risk and its five components every 100 ms, reported when it has moved; at the
coordinator a sheaf's rise to SECURE_AT begins an eclipse, as a high risk does 3,600 s after the last one; at E0 the
module holds its flips and its owned state leaves for the buddy; the resume ends the eclipse; the cutover of a handover
moves the position with the job's state; complete NVMe copies replace the older ones. It rests on the model's choices
of log entries 15, 74, 75, 76, 136. -/
def Obligations.RiskEclipseAndHandoverComplete : Prop :=
  (∀ s : State, s.on = true → firmwareRuns s = true →
    ∃ t, exec .riskTick s = .next t ∧ t.nwt.comps = riskComps s ∧ t.nwt.risk = min 255 (riskComps s).sum
      ∧ (s.plan.isSome = true → s.ownId.isSome = true → isCoordinator s = false → s.nwt.reportAt = none →
          s.nwt.reported + 8 ≤ min 255 (riskComps s).sum → .riskReport (min 255 (riskComps s).sum) ∈ t.out)
      ∧ SameMap s t)
  ∧ (∀ (s : State) (m : ModuleId) (r : Byte) (p : Plan), s.on = true → s.plan = some p →
    (isCoordinator s = true → m ∈ p.modules → s.fenced.contains m.toNat = false →
      ∃ t, exec (.riskReport m r) s = .next t ∧ SMap.find t.nwt.risks m.toNat = some r.toNat
        ∧ .sheafRisk (m.toNat / 8) (sheafRisk t (m.toNat / 8)) ∈ t.out
        ∧ ((survival s).secureAt ≤ sheafRisk t (m.toNat / 8) → sheafRisk s (m.toNat / 8) < (survival s).secureAt →
            m.toNat / 8 ∉ s.nwt.spent → s.nwt.eclipse = .none →
            t.nwt.eclipse = .quiesce ∧ .eclipse ∈ t.out ∧ t.fld .thrCtrl 0 [] 1 1 = 1))
    ∧ (isCoordinator s = false → m.toNat / 8 = s.dev.sheaf →
      exec (.riskReport m r) s = .next { s with nwt := { s.nwt with sheafMax := r.toNat } }))
  ∧ (∀ s : State, s.on = true → s.plan.isSome = true → ownJoinOpen s = false → s.nwt.eclipse = .quiesce →
      s.dev.mode = .service →
    ∃ t, exec .eclipseE0 s = .next t ∧ t.dev.mode = .eclipse ∧ t.nwt.eclipse = .copy ∧ t.nwt.e0 = s.pst.up
      ∧ t.nwt.e0Time = s.pst.now ∧ t.fld .thrCtrl 0 [] 1 1 = 1
      ∧ (∀ b, buddyOf s = some b → s.fenced.contains b = false → ∀ x ∈ s.thresher.shards,
          x.secured ≠ some (stepMark x.step) → .secure b x.tensor x.step.toNat (securedBytes s x) (shardRecord x) ∈ t.out)
      ∧ t.thresher = s.thresher ∧ SameMap s t)
  ∧ (∀ (s : State) (bytes : Nat), s.on = true → s.nwt.eclipse = .copy → s.dev.mode = .eclipse →
    ∃ t, exec (.eclipseResume bytes) s = .next t ∧ t.nwt.eclipse = .none ∧ t.dev.mode = s.dev.eclipseReturn
      ∧ t.nwt.lastEclipse = some s.pst.up ∧ t.fld .thrCtrl 0 [] 1 1 = 0
      ∧ t.reg .nwtEclipses = (s.reg .nwtEclipses).incSat 1
      ∧ (buddyFenced s = false → ∀ x ∈ t.thresher.shards, x.secured = some (stepMark x.step)) ∧ SameMap s t)
  ∧ (∀ (s : State) (p : Plan) (a : Nat), s.on = true → s.plan = some p → isCoordinator s = true →
      s.nwt.lastEclipse = some a → a + 3600 * 10^9 ≤ s.pst.up → s.nwt.eclipse = .none →
      (∃ m ∈ p.modules, (survival s).secureAt ≤ sheafRisk s (m.toNat / 8)) →
    ∃ t, exec .eclipseRepeat s = .next t ∧ t.nwt.eclipse = .quiesce ∧ .eclipse ∈ t.out)
  ∧ (∀ (s : State) (bytes : Nat), s.on = true → s.nwt.handover = true → s.dev.mode = .drain → reserveUsable s = true →
      s.nwt.eclipse = .none → s.serving.running = false → ownJoinOpen s = false →
      (∀ x ∈ s.insts, x.2.phase ≠ .turning ∧ x.2.nextPhase ≠ some .turning) →
    ∀ moved, ∃ t j, exec (.handoverCutover bytes moved) s = .next t ∧ t.ownId = none ∧ t.dev.noPosition = true ∧ t.plan = none
      ∧ .jobMove j ∈ t.out ∧ j.insts = s.insts ∧ j.serving = s.serving ∧ j.thresher = s.thresher
      ∧ j.tenants = s.service.tenants ∧ j.sessions.map (fun x => (x.1, x.2.binding, x.2.ring, x.2.fenced))
          = s.service.sessions.map (fun x => (x.1, x.2.binding, x.2.ring, x.2.fenced)) ∧ t.nwt.handover = false ∧ t.service.conns = [] ∧ t.reg .nwtHandovers = (s.reg .nwtHandovers).incSat 1
      ∧ ∀ a ∈ s.nwt.handoverAsks, .forwardAnswer a.1 0x34 a.2 .ok 0 ∈ t.out)
  ∧ (∀ (s : State) (bytes p : Nat), s.on = true → s.nwt.handover = false → s.dev.position = 8 → s.ownId = none →
      s.dev.mode = .service →
      (List.range 8).find? (fun g => linkRuns (s.link g) && (s.link g).hbState == 5#8) = some p →
    ∀ moved, ∃ t, exec (.handoverCutover bytes moved) s = .next t
      ∧ (∀ j, moved = some j → t.insts = j.insts ∧ t.serving = j.serving ∧ t.thresher = j.thresher
          ∧ t.service.tenants = j.tenants ∧ t.service.sessions
            = j.sessions.map (fun x => (x.1, { x.2 with conn := none, detachedAt := s.pst.up })))
      ∧ t.dev.module = some (BitVec.ofNat 12 (8 * s.dev.sheaf + p))
      ∧ t.dev.position = p ∧ t.reg .nwtHandovers = (s.reg .nwtHandovers).incSat 1)
  ∧ (∀ s : State, s.on = true → anyDrive s = true →
    ∃ t, exec .nvmeCopyDone s = .next t ∧ t.nwt.nvmeCopy = []
      ∧ (∀ x ∈ t.thresher.shards, ∀ e, s.nwt.nvmeCopy.find? (fun e => e.1 = x.tensor) = some e → x.nvme = some e.2)
      ∧ SameMap s t ∧ t.regs = s.regs)

/-- R403 to R408, R455: heartbeats leave on every group that runs, and the arbiter's on its sheaf's behalf; a miss
counts, and the eighth in a row is a suspicion; a suspicion that four share, or by which a module names itself, fences
the module, and one that fewer share for 20 ms is a link fault; a module that has lost four peers fails itself; a
fence notice takes the module named out of the job. It rests on the model's choices of log entries 15, 77, 78, 79. -/
def Obligations.HeartbeatsAndFencingComplete : Prop :=
  (∀ s : State, s.on = true → firmwareRuns s = true →
    ∃ t, exec .heartbeatSend s = .next t ∧ ∀ g, g < 8 → linkRuns (s.link g) = true → (s.link g).replay.length < 4096 →
      (t.link g).txNext = seq24 ((s.link g).txNext + 1)
      ∧ .flit g (flitBytes (s.link g).txNext 2 (seq24 ((s.link g).rxNext + 2^24 - 1)) 2 (heartbeatPayload s)) ∈ t.out)
  ∧ (∀ s : State, s.on = true → isArbiter s = true → s.plan.isSome = true → firmwareRuns s = true →
    exec .sheafHeartbeatSend s = .next { s with out := .sheafHeartbeat s.dev.sheaf :: s.out })
  ∧ (∀ (s : State) (g : PortIx), s.on = true → (s.link g).state ≠ .down → (s.link g).state ≠ .fenced →
      (s.link g).hbAt.getD (s.link g).trainedAt + 1100000 ≤ s.pst.up →
    ((s.link g).hbMiss ≠ 7 →
      ∃ t, exec (.heartbeatMiss g) s = .next t ∧ (t.link g).hbMiss = (s.link g).hbMiss + 1
        ∧ t.reg .frwGrpHbmiss 0 [g.val] = (s.reg .frwGrpHbmiss 0 [g.val]).incSat 1 ∧ t.out = s.out ∧ t.nwt = s.nwt)
    ∧ (∀ p, (s.link g).hbMiss = 7 → (s.link g).peer = some p → s.ownId.isSome = true → isArbiter s = false →
      ∃ t, exec (.heartbeatMiss g) s = .next t ∧ (t.link g).hbMiss = 8 ∧ .suspicion p ∈ t.out
        ∧ t.reg .nwtSuspects = (s.reg .nwtSuspects).incSat 1
        ∧ ∃ x ∈ t.nwt.suspects, x.sender = s.dev.position ∧ x.peer = p ∧ x.at_ = s.pst.up))
  ∧ (∀ (s : State) (a b : Fin 9), s.on = true → isArbiter s = true → s.ownId = some (atPos s s.dev.position) →
      b.val ≠ s.dev.position → b.val < 8 → posActive s b = true → (a.val = 8 ∨ posActive s a = true) →
    (a = b → ∃ t, exec (.suspicion a b) s = .next t ∧ atPos s b ∈ t.fenced ∧ .fenceNotice (some (atPos s b)) ∈ t.out)
    ∧ (a ≠ b → (∀ x ∈ s.nwt.suspects, x.peer = b.val → x.sender ≠ a.val) →
        (s.nwt.suspects.filter fun x => decide (x.peer = b.val) && decide (x.sender < 8)).length < 3 →
      ∃ t, exec (.suspicion a b) s = .next t ∧ t.fenced = s.fenced
        ∧ t.nwt.suspects = s.nwt.suspects ++ [⟨a.val, b.val, s.pst.up⟩])
    ∧ (a ≠ b → a.val < 8 → (∀ x ∈ s.nwt.suspects, x.peer = b.val → x.sender ≠ a.val) →
        (s.nwt.suspects.filter fun x => decide (x.peer = b.val) && decide (x.sender < 8)).length = 3 →
      ∃ t, exec (.suspicion a b) s = .next t ∧ atPos s b ∈ t.fenced ∧ .fenceNotice (some (atPos s b)) ∈ t.out))
  ∧ (∀ (s : State) (p : Fin 9), s.on = true → (∃ x ∈ s.nwt.suspects, x.peer = p.val) →
      (s.nwt.suspects.filter fun x => x.peer = p.val).length < 4 →
      (∀ x ∈ s.nwt.suspects, x.peer = p.val → x.at_ + 20 * 10^6 ≤ s.pst.up) →
    ∃ t, exec (.linkFaultTimeout p) s = .next t ∧ (∀ x, x ∈ t.nwt.suspects ↔ x ∈ s.nwt.suspects ∧ x.peer ≠ p.val)
      ∧ ((∃ x ∈ s.nwt.suspects, x.peer = p.val ∧ x.sender = s.dev.position) → p.val ∈ t.nwt.relays)
      ∧ t.fenced = s.fenced ∧ SameMap s t)
  ∧ (∀ s : State, s.on = true → s.dev.mode = .service →
      4 ≤ ((List.range 8).filter fun g => decide (8 ≤ (s.link g).hbMiss)
        && (s.link g).peer.any fun p => decide (p ≠ s.dev.position) && posActive s p).length →
    ∃ t, exec .selfFence s = .next t ∧ t.dev.mode = .failed ∧ t.dev.failedAt = s.pst.up ∧ t.service.conns = [] ∧ SameMap s t)
  ∧ (∀ (s : State) (sh : Fin 512) (p : Plan), s.on = true → s.plan = some p → isCoordinator s = true →
      s.dev.position < 8 → s.ownId = some (atPos s s.dev.position) → sh.val ≠ s.dev.sheaf →
    ∃ t, exec (.sheafHeartbeatMiss sh) s = .next t
      ∧ ∀ m ∈ p.modules, m.toNat / 8 = sh.val → s.fenced.contains m.toNat = false →
          m.toNat ∈ t.fenced ∧ .fenceNotice (some m.toNat) ∈ t.out)
  ∧ (∀ (s : State) (m a : ModuleId) (cause : Byte), s.on = true →
    (s.ownId ≠ some m.toNat → s.fenced.contains m.toNat = false →
      ∃ t, exec (.fenceNotice (some m) a cause) s = .next t ∧ (∀ x, x ∈ t.fenced ↔ x = m.toNat ∨ x ∈ s.fenced)
        ∧ (∀ w ∈ t.watches, w.src ≠ m.toNat) ∧ (∀ w ∈ t.waits, w.remote ≠ some m.toNat))
    ∧ (s.ownId = some m.toNat → s.dev.mode = .service →
      ∃ t, exec (.fenceNotice (some m) a cause) s = .next t ∧ t.dev.mode = .failed ∧ t.service.conns = [])
    ∧ (s.ownId.isSome = true →
      ∃ t, exec (.fenceNotice none a cause) s = .next t ∧ t.reg .nwtFencings = (s.reg .nwtFencings).incSat 1
        ∧ t.fld .frwRoute 0 [8] 3 0 = 0xF ∧ t.nwt.handover = false ∧ t.fenced = s.fenced))

/-- R394, R410 to R415: a fenced position is taken by the reserve, by the buddy where no reserve is usable, or by the
module that reports it; a restored state that passes its check ends the takeover, one that fails it, or is not there in
time, is replaced by the NVMe copies; a module with no ID becomes the reserve, and a usable reserve takes the missing
position of a SHORT sheaf; a secured copy is kept, or noted at its owner, where it repairs a poisoned half. It rests on
the model's choices of log entries 15, 77, 80, 133. -/
def Obligations.TakeoverComplete : Prop :=
  (∀ (s : State) (p : Fin 8) (homes : List FencedHome) (k : Takeover), s.on = true →
      s.nwt.takeovers.find? (fun t => t.pos = p.val && !t.begun) = some k →
    (s.dev.position = 8 → s.ownId = none →
      ∃ t, exec (.takeover p homes) s = .next t ∧ t.dev.module = some (BitVec.ofNat 12 (atPos s p)) ∧ t.dev.position = p.val
        ∧ t.dev.noPosition = false ∧ (∀ x ∈ t.nwt.takeovers, x.pos = p.val → x.begun = true)
        ∧ (∀ h ∈ homes, (session? t h.session).isSome = true) ∧ atPos s p ∉ t.fenced)
    ∧ (s.ownId.isSome = true → reserveUsable s = true →
      ∃ t, exec (.takeover p homes) s = .next t ∧ k.module ∉ t.fenced ∧ t.fld .frwRoute 0 [p.val] 3 0 = 7
        ∧ (∀ x ∈ t.nwt.takeovers, x.pos ≠ p.val) ∧ (∀ x, x ∈ t.nwt.short ↔ x ≠ p.val ∧ x ∈ s.nwt.short))
    ∧ (s.ownId.isSome = true → reserveUsable s = false → s.dev.position < 8 → p.val = (s.dev.position ^^^ 4) →
        s.ownId ≠ some k.module →
      ∃ t, exec (.takeover p homes) s = .next t ∧ (∀ x ∈ t.nwt.takeovers, x.pos = p.val → x.begun = true)
        ∧ (∀ o ∈ t.thresher.owners, o.owner ≠ k.module) ∧ (∀ x ∈ t.thresher.secured, x.owner ≠ k.module))
    ∧ (s.ownId.isSome = true → reserveUsable s = false → p.val ≠ (s.dev.position ^^^ 4) → s.dev.position < 8 →
        k.module ≠ atPos s (p.val ^^^ 4) →
      ∃ t, exec (.takeover p homes) s = .next t ∧ (∀ x ∈ t.nwt.takeovers, x.pos ≠ p.val)
        ∧ (∀ o ∈ t.thresher.owners, o.owner ≠ k.module) ∧ t.thresher.shards = s.thresher.shards))
  ∧ (∀ (s : State) (ordered : Bool) (loss : Option (Word × Word)) (k : Takeover), s.on = true →
      s.nwt.takeovers.find? (fun t => t.begun) = some k →
    (checkPasses s ordered loss = true →
      ∃ t, exec (.restoreCheck ordered loss) s = .next t ∧ (∀ x, x ∈ t.nwt.takeovers ↔ x ∈ s.nwt.takeovers ∧ x.pos ≠ k.pos)
        ∧ t.reg .nwtTakeovers = (s.reg .nwtTakeovers).incSat 1 ∧ bit (t.reg .nwtCheck).toNat 8 = true
        ∧ t.thresher.shards = s.thresher.shards ∧ .takenOver k.module ∈ t.out)
    ∧ (checkPasses s ordered loss = false →
      ∃ t, exec (.restoreCheck ordered loss) s = .next t ∧ (∀ x, x ∈ t.nwt.takeovers ↔ x ∈ s.nwt.takeovers ∧ x.pos ≠ k.pos)
        ∧ bit (t.reg .nwtCheck).toNat 9 = true
        ∧ ∀ x ∈ t.thresher.shards, ∀ c, x.nvme = some c → x.epoch = c.epoch ∧ x.step = c.step ∧ x.masterFp = c.masterFp
            ∧ x.half = c.half ∧ x.poison = false))
  ∧ (∀ (s : State) (k : Takeover), s.on = true →
      s.nwt.takeovers.find? (fun t => decide (s.pst.up ≥ t.at_ + (survival s).takeoverS * 10^9)) = some k →
    ∃ t, exec .takeoverTimeout s = .next t ∧ (∀ x, x ∈ t.nwt.takeovers ↔ x ∈ s.nwt.takeovers ∧ x.pos ≠ k.pos)
      ∧ bit (t.reg .nwtCheck).toNat 9 = true ∧ t.reg .nwtTakeovers = (s.reg .nwtTakeovers).incSat 1)
  ∧ (∀ s : State, s.on = true →
    (s.ownId = none → s.dev.mode = .service → (∀ g, g < 8 → posActive s g = true → linkRuns (s.link g) = true) →
      ∃ t, exec .reserveJoin s = .next t ∧ t.dev.position = 8 ∧ t.dev.noPosition = false
        ∧ ∀ q, q < 8 → t.fld .frwRoute 0 [q] 3 0 = q)
    ∧ (∀ p rest, s.ownId.isSome = true → s.nwt.short = p :: rest → reserveUsable s = true →
        (∀ x ∈ s.nwt.takeovers, x.pos ≠ p) →
      exec .reserveJoin s = .next { s with nwt := { s.nwt with
        takeovers := s.nwt.takeovers ++ [⟨p, atPos s p, s.pst.up, false⟩] } }))
  ∧ (∀ (s : State) (o : ModuleId) (tensor : Nat) (c : ShardCopy), s.on = true → s.fenced.contains o.toNat = false →
    (∀ x, s.ownId = some o.toNat → ownShard s tensor = some x → x.poison = false →
        stepPos c.step ≤ stepPos x.step → buddyFenced s = false →
      ∃ t y, exec (.securedRefresh o tensor c) s = .next t ∧ ownShard t tensor = some y
        ∧ y = { x with secured := some (stepMark c.step) })
    ∧ (∀ x, s.ownId = some o.toNat → ownShard s tensor = some x → x.poison = true → x.halves.length = 2 →
        c.step = x.step → masterFpOf c.half.master = x.masterFp →
      ∃ t y, exec (.securedRefresh o tensor c) s = .next t ∧ ownShard t tensor = some y ∧ y.poison = false
        ∧ y.half = c.half ∧ y.epoch = x.epoch ∧ y.step = x.step ∧ y.masterFp = x.masterFp)
    ∧ (s.ownId ≠ some o.toNat → buddyOf s = some o.toNat →
        (∀ x ∈ s.thresher.secured, x.owner = o.toNat → x.tensor = tensor → stepPos x.copy.step ≤ stepPos c.step) →
      ∃ t, exec (.securedRefresh o tensor c) s = .next t ∧ ⟨o.toNat, tensor, c⟩ ∈ t.thresher.secured
        ∧ (∀ x ∈ t.thresher.secured, x.owner = o.toNat → x.tensor = tensor → x.copy = c)
        ∧ t.thresher.shards = s.thresher.shards ∧ SameMap s t))

/-! ### The service protocol (chapters 10, 11 and 17) -/

/-- R432: a message that fails one of the checks of every message is counted and completes with the status and detail
of the first check that fails; nothing else of the block changes. It rests on the model's choices of log entries 82,
83, 89. -/
def Obligations.RefusedMessageChangesNothing : Prop :=
  ∀ op ∈ msgCommands, ∀ (s : State) (m : Msg) (x : Conn) (st : Status) (d : Nat), s.on = true →
    SMap.find s.service.conns m.conn = some x → msgCheck s op.1 m x = some (st, d) → op.1.code ≠ 0x10 →
    ∃ t, exec (op.2 m) s = .next t ∧ Answered s t m x op.1 st d []
      ∧ t.reg .supSvcRx = (s.reg .supSvcRx).incSat 1 ∧ t.reg .supSvcReject = (s.reg .supSvcReject).incSat 1
      ∧ SameRegsBut s t [regOff .supSvcRx, regOff .supSvcReject]
      ∧ t.service.sessions = s.service.sessions ∧ t.service.waiting = s.service.waiting
      ∧ t = { s with regs := t.regs, service := t.service, out := t.out }

/-- R421, R422, R425, R426, R428, R429, R445: a connection is taken or refused; HELLO answers with a fresh nonce and
leaves the connection unauthenticated; AUTH whose signature verifies authenticates it and gives it its session, whose
unsent and held messages go out in order; one that does not is counted and the third closes the connection; BYE closes
it; a session without a connection for 60 s expires, as do held FENCED terminals; remote access is answered with a NAK.
It rests on the model's choices of log entries 15, 82, 84, 85, 93, 135. -/
def Obligations.SessionCommandsComplete : Prop :=
  (∀ (s : State) (c : Nat) (supported : Bool), s.on = true → SMap.find s.service.conns c = none →
    (serves s = true → supported = true → s.service.conns.length < 4096 →
      ∃ t, exec (.connectionRequest c supported) s = .next t ∧ SMap.find t.service.conns c = some {}
        ∧ (∀ d, d ≠ c → SMap.find t.service.conns d = SMap.find s.service.conns d) ∧ t.out = s.out)
    ∧ ((serves s = false ∨ supported = false ∨ 4096 ≤ s.service.conns.length) →
      exec (.connectionRequest c supported) s = .next { s with out := .refuseConn c :: s.out }))
  ∧ (∀ (s : State) (c n : Nat), s.on = true →
    (∃ t, exec (.connectionLoss c n) s = .next t ∧ SMap.find t.service.conns c = none
      ∧ (∀ id y, session? s id = some y → session? t id = some (if y.conn = some c then
          { y with conn := none, detachedAt := s.pst.up, flight := y.flight.drop (y.flight.length - n) } else y))
      ∧ t = { s with service := t.service })
    ∧ (∀ x, SMap.find s.service.conns c = some x →
      exec (.remoteAccessNak c) s = .next { s with out := .accessNak c :: s.out })
    ∧ (∀ x, SMap.find s.service.conns c = some x → x.hello.isSome = true → x.auth = false →
        x.helloAt + 10 * 10^9 ≤ s.pst.up →
      ∃ t, exec (.authTimeout c) s = .next t ∧ SMap.find t.service.conns c = none ∧ t.out = .close c :: s.out))
  ∧ (∀ (s : State) (m : Msg) (x : Conn), Accepted s tHello m x → fieldAt m.body 0 1 = 1 → fieldAt m.body 1 1 ≤ 3 →
      fieldAt m.body 2 2 ≤ 4095 → zeroAt m.body 4 4 = true →
      (∀ y, session? s (BitVec.ofNat 64 (fieldAt m.body 8 8)) = some y → y.binding = .tenant (fieldAt m.body 2 2)) →
    ∃ t y, exec (.hello m) s = .next t ∧ SMap.find t.service.conns m.conn = some y
      ∧ y.hello = some (BitVec.ofNat 64 (fieldAt m.body 8 8), .tenant (fieldAt m.body 2 2)) ∧ y.auth = false
      ∧ y.nonce.length = 32
      ∧ ∃ rest, rest.length = 8
          ∧ .message m.conn (msgBytes y.version 1 0 0 m.requestId s.pst.now x.sent.toNat (y.nonce ++ rest)) ∈ t.out)
  ∧ (∀ (s : State) (m : Msg) (x : Conn), Accepted s tAuth m x → zeroAt m.body 114 14 = true →
    (∀ id b, x.hello = some (id, b) → authVerifies s x (m.body.take 114) = true →
        (∀ y, session? s id = some y → sameBinding y.binding b = true) →
      ∃ t y z, exec (.auth m) s = .next t ∧ SMap.find t.service.conns m.conn = some y ∧ y.auth = true
        ∧ Answered s t m x tAuth .ok 0 [] ∧ session? t id = some z ∧ z.conn = some m.conn ∧ z.ring = []
        ∧ ∀ w, session? s id = some w → w.conn = none →
          t.reg .supSvcResent = (s.reg .supSvcResent).incSat w.flight.length ∧ z.flight = w.flight ++ w.ring ++ w.fenced
          ∧ ∀ r ∈ z.flight, ∃ n,
              .message m.conn (msgBytes x.version r.ty (statusCode r.status) r.detail r.reqId s.pst.now n r.body) ∈ t.out)
    ∧ (authVerifies s x (m.body.take 114) = false →
      ∃ t, exec (.auth m) s = .next t ∧ t.reg .supSvcAuthfail = (s.reg .supSvcAuthfail).incSat 1
        ∧ Answered s t m x tAuth .sigFail 0x49 []
        ∧ (x.fails < 2 → ∃ y, SMap.find t.service.conns m.conn = some y ∧ y.fails = x.fails + 1 ∧ y.auth = x.auth)
        ∧ (2 ≤ x.fails → SMap.find t.service.conns m.conn = none)))
  ∧ (∀ (s : State) (m : Msg) (x : Conn), Accepted s tBye m x →
    ∃ t, exec (.bye m) s = .next t ∧ Answered s t m x tBye .ok 0 [] ∧ SMap.find t.service.conns m.conn = none
      ∧ .close m.conn ∈ t.out)
  ∧ (∀ (s : State) (id : DWord) (y : SvcSession), s.on = true → session? s id = some y → y.conn = none →
    (y.fenced = [] → y.detachedAt + 60 * 10^9 ≤ s.pst.up →
      ∃ t, exec (.sessionTimeout id) s = .next t ∧ session? t id = none
        ∧ (∀ q ∈ t.serving.queue, q.req.session ≠ id)
        ∧ (∀ i z, slot? t i = some z → z.req.session = id → z.state = .ending)
        ∧ t.reg .supSvcExpired = (s.reg .supSvcExpired).incSat 1)
    ∧ ((∀ k ∈ s.nwt.takeovers, k.begun = false) → s.nwt.takenAt + 60 * 10^9 ≤ s.pst.up →
      ∃ t, exec (.fencedTerminalExpiry id) s = .next t ∧ t.serving = s.serving
        ∧ ∀ z, session? t id = some z → z.fenced = []))

/-- R264, R265, R276, R279 to R283, R330, R333, R437, R440: a GENERATE that passes its checks waits in its pool's
queue; a CANCEL ends the request that it names, or goes to the request's home and completes with its answer; a CANCEL
that another module forwarded is answered to it; a REWARD writes its record; a SAMPLE_READ writes the records that its
session may read; an adapter version is stored, goes to the other modules and becomes current, or its ID is deleted,
at a later boundary. It rests on the model's choices of log entries 66, 86, 88, 89, 90. -/
def Obligations.ClientRequestsComplete : Prop :=
  (∀ (s : State) (m : Msg) (x : Conn) (bulk : Bulk) (r : GenReq), Accepted s tGenerate m x →
      bit (fieldAt m.body 1 1) 4 = true →
      r = genOf m ((connSession x).getD 0) ((connTenant x).getD 0) (wordsOf (m.body.drop 64) (fieldAt m.body 12 4)) →
      genMalformed m r = false → genRefused s r = none →
    ∃ t, exec (.generate m bulk) s = .next t ∧ t.serving.queue = s.serving.queue ++ [{ req := r, ran := 0, since := s.pst.up }]
      ∧ t.serving.slots = s.serving.slots ∧ t.out = s.out ∧ SameMap s t)
  ∧ (∀ (s : State) (m : Msg) (x : Conn) (d : List Byte) (r : GenReq), Accepted s tGenerate m x →
      bit (fieldAt m.body 1 1) 4 = false → refLen m 64 ≠ 0 → d.length = refLen m 64 →
      r = genOf m ((connSession x).getD 0) ((connTenant x).getD 0) (wordsOf d (fieldAt m.body 12 4)) →
      genMalformed m r = false → genRefused s r = none →
    ∃ t, exec (.generate m (some d)) s = .next t ∧ t.serving.queue = s.serving.queue ++ [{ req := r, ran := 0, since := s.pst.up }] ∧ t.out = s.out)
  ∧ (∀ (s : State) (m : Msg) (x : Conn), Accepted s tCancel m x →
      foreignHome s (BitVec.ofNat 64 (fieldAt m.body 0 8)) = none →
      mayName x (BitVec.ofNat 64 (fieldAt m.body 0 8)) = true →
    (∀ q, queuedReq s (BitVec.ofNat 64 (fieldAt m.body 0 8)) = some q →
      ∀ a, ∃ t, exec (.cancel m (.client a)) s = .next t ∧ Answered s t m x tCancel .ok 0 []
        ∧ queuedReq t (BitVec.ofNat 64 (fieldAt m.body 0 8)) = none ∧ t.serving.slots = s.serving.slots)
    ∧ (∀ i y, queuedReq s (BitVec.ofNat 64 (fieldAt m.body 0 8)) = none →
        slotOfReq s (BitVec.ofNat 64 (fieldAt m.body 0 8)) = some (i, y) → slot? s i = some y → y.state ≠ .ending →
      ∀ a, ∃ t z, exec (.cancel m (.client a)) s = .next t ∧ Answered s t m x tCancel .ok 0 [] ∧ slot? t i = some z
        ∧ z.state = .ending ∧ z.end_ = 3 ∧ z.endStatus = .cancelled ∧ .cancelNotice i ∈ t.out))
  ∧ (∀ (s : State) (m : Msg) (x : Conn) (h : Nat), Accepted s tCancel m x →
      mayName x (BitVec.ofNat 64 (fieldAt m.body 0 8)) = true →
      foreignHome s (BitVec.ofNat 64 (fieldAt m.body 0 8)) = some h →
    (∀ st d, ∃ t, exec (.cancel m (.client (some (st, d)))) s = .next t ∧ .forward h tCancel.code m.body ∈ t.out
      ∧ Answered s t m x tCancel st d.toNat [] ∧ t.serving = s.serving)
    ∧ ∃ t, exec (.cancel m (.client none)) s = .next t ∧ .forward h tCancel.code m.body ∈ t.out
      ∧ Waits t m tCancel (.forwarded h) ∧ t.serving = s.serving)
  ∧ (∀ (s : State) (m : Msg) (src : ModuleId) (q : Queued), s.on = true →
      queuedReq s (BitVec.ofNat 64 (fieldAt m.body 0 8)) = some q →
    ∃ t, exec (.cancel m (.module src)) s = .next t ∧ queuedReq t (BitVec.ofNat 64 (fieldAt m.body 0 8)) = none
      ∧ .forwardAnswer src.toNat tCancel.code m.requestId.toNat .ok 0 ∈ t.out)
  ∧ (∀ (s : State) (m : Msg) (x : Conn) (i : Nat) (r : Sample), Accepted s tReward m x →
      foreignHome s (BitVec.ofNat 64 (fieldAt m.body 0 8)) = none → fieldAt m.body 8 4 ≠ 0xFFFFFFFF →
      rewardCheck s (mayName x (BitVec.ofNat 64 (fieldAt m.body 0 8))) (BitVec.ofNat 64 (fieldAt m.body 0 8)) false
        (fun r => r.reqId == BitVec.ofNat 64 (fieldAt m.body 0 8) && r.index == fieldAt m.body 8 4) (fieldAt m.body 12 4) = none →
      i ∈ SMap.keys s.insts →
      (inst s i).store.find? (fun r => r.reqId == BitVec.ofNat 64 (fieldAt m.body 0 8) && r.index == fieldAt m.body 8 4)
        = some r →
    ∀ a, ∃ t, exec (.reward m (.client a)) s = .next t ∧ Answered s t m x tReward .ok 0 []
      ∧ (bit r.flags 4 = true → isCoordinator s = false → .rewarded i ∈ t.out)
      ∧ { r with reward := BitVec.ofNat 32 (fieldAt m.body 12 4), flags := r.flags ||| 32 } ∈ (inst t i).store)
  ∧ (∀ (s : State) (m : Msg) (x : Conn) (r : Sample) (l : List Sample), Accepted s tSampleRead m x → refLen m 24 ≠ 0 →
      zeroAt m.body 2 6 = true → zeroAt m.body 20 4 = true → zeroAt m.body 44 4 = true → fieldAt m.body 16 4 ≠ 0 →
      fieldAt m.body 16 4 ≤ 65536 → (planInst s (fieldAt m.body 0 2)).isSome = true →
      ((inst s (fieldAt m.body 0 2)).store.filter fun r => decide (fieldAt m.body 8 8 ≤ r.seq) && (match connTenant x with
        | some k => r.tenant == k
        | none => true)).take (min (fieldAt m.body 16 4) (refLen m 24 / 64)) = r :: l →
    ∃ t, exec (.sampleRead m true) s = .next t
      ∧ .bulkWrite m.conn ((m.body.drop 24).take 24) ((r :: l).map sampleBytes).flatten ∈ t.out
      ∧ Answered s t m x tSampleRead .ok 0
          (leBytes 8 r.seq ++ leBytes 4 (l.length + 1) ++ leBytes 8 (((r :: l).getLast (by simp)).seq + 1))
      ∧ ∀ y ∈ (inst t (fieldAt m.body 0 2)).store, (∃ z ∈ r :: l, z.seq = y.seq) → y.read = true)
  ∧ (∀ (s : State) (m : Msg) (x : Conn) (im : List Byte), Accepted s tAdapterPut m x → refLen m 8 ≠ 0 →
      im.length = refLen m 8 → zeroAt m.body 2 6 = true → zeroAt m.body 28 4 = true →
      adapterRefused s (fieldAt m.body 0 2) ((connTenant x).getD 0) im = none →
    ∃ t a, exec (.adapterPut m (some im)) s = .next t ∧ adapter? t (fieldAt m.body 0 2) (fieldAt im 4 2) = some a
      ∧ a.next = some (BitVec.ofNat 32 (fieldAt im 8 4)) ∧ .adapterImage (fieldAt m.body 0 2) im ∈ t.out
      ∧ { num := BitVec.ofNat 32 (fieldAt im 8 4), image := im, copy := im } ∈ a.versions
      ∧ a.current = (adapter? s (fieldAt m.body 0 2) (fieldAt im 4 2)).bind (·.current)
      ∧ Waits t m tAdapterPut (.adapterPut (fieldAt m.body 0 2) (fieldAt im 4 2) (BitVec.ofNat 32 (fieldAt im 8 4))))
  ∧ (∀ (s : State) (m : Msg) (x : Conn) (a : Adapter), Accepted s tAdapterDel m x → zeroAt m.body 4 4 = true →
      (planInst s (fieldAt m.body 0 2)).isSome = true →
      adapter? s (fieldAt m.body 0 2) (fieldAt m.body 2 2) = some a → connTenant x = some a.tenant → a.current.isSome = true →
    ∃ t b, exec (.adapterDel m) s = .next t ∧ adapter? t (fieldAt m.body 0 2) (fieldAt m.body 2 2) = some b
      ∧ b.deleting = true ∧ b.next = none ∧ b.current = a.current
      ∧ Waits t m tAdapterDel (.adapterDel (fieldAt m.body 0 2) (fieldAt m.body 2 2)))

/-! ### The operator and the status queries (chapters 17 to 19) -/

/-- R141, R187, R294, R295, R310, R396, R400, R441, R484 to R486: PLAN loads a plan that passes its checks, or unloads
the one loaded; a load leaves the job's tallies at 0 and the harts of its cores in user mode under the plan's PMP
entries; a WEIGHT_SET whose manifest and data verify waits to be published; LEARN decides the phase LEARNING, at the
coordinator; SECURE at the coordinator begins an eclipse; HANDOVER drains its module, or goes to the module that it
names; TENANT takes a tenant's record; CAL_READ and CAL_WRITE move the calibration set, and a power loss during the
write leaves it invalid; a FW_BLOCK is staged. It rests on the model's choices of log entries 53, 86, 90, 91, 92, 106,
137. -/
def Obligations.OperatorRequestsComplete : Prop :=
  (∀ (s : State) (m : Msg) (x : Conn) (p : Plan), Accepted s tPlan m x → refLen m 8 ≠ 0 → fieldAt m.body 0 1 = 0 →
      zeroAt m.body 1 7 = true → zeroAt m.body 28 4 = true → s.plan = none → planBad s p = none →
    ∃ t, exec (.planLoad m (some p)) s = .next t ∧ t.plan = some p ∧ Answered s t m x tPlan .ok 0 []
      ∧ (∀ i, inst t i = {}) ∧ t.serving.slots = [] ∧ t.serving.queue = []
      ∧ t.thresher.owners = planOwners p ∧ t.thresher.shards = planShards p s.ownId
      ∧ (∀ k, k < 128 → p.cores.getLsbD k = true → mxeBusy s k = false →
          t.reg .mxeSeedLo k = p.jobSeed.setWidth 32 ∧ t.reg .mxeSeedHi k = (p.jobSeed >>> 32).setWidth 32)
      ∧ (∀ i ∈ p.tallies, t.tally i.toNat = 0)
      ∧ (∀ h, h < 512 → p.cores.getLsbD (h / 4) = true → (t.hart h).mode = .user ∧ (t.hart h).pmp = p.pmp) ∧ SameMap s t)
  ∧ (∀ (s : State) (m : Msg) (x : Conn), Accepted s tPlan m x → fieldAt m.body 0 1 = 1 → zeroAt m.body 1 7 = true →
      zeroAt m.body 28 4 = true → refLen m 8 = 0 → s.plan.isSome = true →
    ∃ t, exec (.planUnload m) s = .next t ∧ t.plan = none ∧ Answered s t m x tPlan .ok 0 [] ∧ t.serving.slots = []
      ∧ t.serving.queue = [] ∧ t.insts = [] ∧ t.service.waiting = [] ∧ t.nwt.eclipse = .none ∧ SameMap s t)
  ∧ (∀ (s : State) (m : Msg) (x : Conn) (mf d again : List Byte), Accepted s tWeightSet m x → refLen m 8 ≠ 0 →
      refLen m 32 ≠ 0 → zeroAt m.body 0 8 = true → zeroAt m.body 28 4 = true → zeroAt m.body 52 4 = true →
      manifestCheck s mf = none →
      (∀ j, j < mTensors mf → (fetchTensor (mEntry mf j) d again).1.isSome = true) →
    ∃ t, exec (.weightSet m (some mf) (some d) (some again)) s = .next t
      ∧ Waits t m tWeightSet (.weightSet (fieldAt mf 20 4) (BitVec.ofNat 64 (fieldAt mf 8 8)) (BitVec.ofNat 32 (fieldAt mf 16 4)))
      ∧ (∃ p, (inst t (fieldAt mf 20 4)).published = (inst s (fieldAt mf 20 4)).published ++ [p]
          ∧ p.setId = BitVec.ofNat 64 (fieldAt mf 8 8) ∧ p.setVer = BitVec.ofNat 32 (fieldAt mf 16 4))
      ∧ (inst t (fieldAt mf 20 4)).current = (inst s (fieldAt mf 20 4)).current ∧ SameMap s t)
  ∧ (∀ (s : State) (m : Msg) (x : Conn), Accepted s tLearn m x → zeroAt m.body 2 6 = true →
      (cycle? s (fieldAt m.body 0 2)).isSome = true → phaseOf s (fieldAt m.body 0 2) = .generation →
      s.nwt.learnStopped = false →
    ∀ a, ∃ t, exec (.learn m (.client a)) s = .next t ∧ Waits t m tLearn (.learn (fieldAt m.body 0 2))
      ∧ (inst t (fieldAt m.body 0 2)).phase = (inst s (fieldAt m.body 0 2)).phase
      ∧ (isCoordinator s = true → phaseOf t (fieldAt m.body 0 2) = .learning ∧ .learning (fieldAt m.body 0 2) ∈ t.out)
      ∧ (isCoordinator s = false → t.insts = s.insts
        ∧ ∀ c, coordinator s = some c → .forward c tLearn.code m.body ∈ t.out))
  ∧ (∀ (s : State) (m : Msg) (x : Conn), Accepted s tSecure m x → isCoordinator s = true → s.nwt.eclipse = .none →
    ∀ a, ∃ t, exec (.secure m (.client a)) s = .next t ∧ t.nwt.eclipse = .quiesce ∧ .eclipse ∈ t.out ∧ Waits t m tSecure .secure)
  ∧ (∀ (s : State) (m : Msg) (x : Conn), Accepted s tHandover m x → fieldAt m.body 0 2 ≤ 4095 →
      zeroAt m.body 2 6 = true → some (fieldAt m.body 0 2) = s.ownId → s.dev.mode = .service → s.plan.isSome = true →
      reserveUsable s = true →
      (∀ g, g < 7 → linkRuns (s.link g) = true → (s.link g).hbState ≠ 5#8) →
    ∀ a, ∃ t, exec (.handover m (.client a)) s = .next t ∧ t.dev.mode = .drain ∧ t.nwt.handover = true
      ∧ Waits t m tHandover (.handover (fieldAt m.body 0 2)))
  ∧ (∀ (s : State) (m : Msg) (x : Conn) (p : Plan), Accepted s tHandover m x → fieldAt m.body 0 2 ≤ 4095 →
      zeroAt m.body 2 6 = true → some (fieldAt m.body 0 2) ≠ s.ownId → s.plan = some p →
      (∃ q ∈ p.modules, q.toNat = fieldAt m.body 0 2) →
    ∃ t, exec (.handover m (.client none)) s = .next t ∧ .forward (fieldAt m.body 0 2) tHandover.code m.body ∈ t.out
      ∧ Waits t m tHandover (.forwarded (fieldAt m.body 0 2)) ∧ t.nwt = s.nwt)
  ∧ (∀ (s : State) (m : Msg) (src : ModuleId), s.on = true → s.ownId.isSome = true → s.dev.mode = .service →
      s.plan.isSome = true → reserveUsable s = true →
      (∀ g, g < 7 → linkRuns (s.link g) = true → (s.link g).hbState ≠ 5#8) →
    ∃ t, exec (.handover m (.module src)) s = .next t ∧ t.dev.mode = .drain ∧ t.nwt.handover = true
      ∧ t.nwt.handoverAsks = s.nwt.handoverAsks ++ [(src.toNat, m.requestId.toNat)])
  ∧ (∀ (s : State) (m : Msg) (x : Conn), Accepted s tTenant m x → fieldAt m.body 0 2 ≤ 4095 → fieldAt m.body 2 2 ≤ 1 →
      zeroAt m.body 81 15 = true → fieldAt m.body 4 4 ≤ 16384 → fieldAt m.body 8 4 ≤ 8388608 → fieldAt m.body 12 4 ≤ 65536 →
    ∃ t y, exec (.tenant m) s = .next t ∧ SMap.find t.service.tenants (fieldAt m.body 0 2) = some y
      ∧ y.slotMax = fieldAt m.body 4 4 ∧ y.pageMax = fieldAt m.body 8 4 ∧ y.adapterMax = fieldAt m.body 12 4
      ∧ y.pools = BitVec.ofNat 64 (fieldAt m.body 16 8) ∧ y.key = (m.body.drop 24).take 57
      ∧ (y.disabled = true ↔ fieldAt m.body 2 2 = 1)
      ∧ (fieldAt m.body 2 2 = 0 → Answered s t m x tTenant .ok 0 [])
      ∧ (fieldAt m.body 2 2 = 1 → ∀ z ∈ t.service.sessions, z.2.binding ≠ .tenant (fieldAt m.body 0 2)))
  ∧ (∀ (s : State) (m : Msg) (x : Conn), Accepted s tCalRead m x → calLen ≤ refLen m 8 → calBody m = true →
    ∃ t, exec (.calRead m true) s = .next t
      ∧ .bulkWrite m.conn ((m.body.drop 8).take 24) (flashRead s rCal 0 calLen) ∈ t.out
      ∧ Answered s t m x tCalRead .ok 0 [] ∧ t.dev = s.dev)
  ∧ (∀ (s : State) (m : Msg) (x : Conn) (c : List Byte), Accepted s tCalWrite m x → s.wf = true → calLen ≤ refLen m 8 →
      c.length = calLen → calBody m = true → calBad s c true = none →
    (∃ t, exec (.calWrite m (some c) false) s = .next t ∧ flashRead t rCal 0 calLen = c
      ∧ Answered s t m x tCalWrite .ok 0 [] ∧ t.dev.flashB = s.dev.flashB ∧ t.dev.cal = s.dev.cal)
    ∧ ∃ t, exec (.calWrite m (some c) true) s = .next t ∧ (calBad t (flashRead t rCal 0 calLen) false).isSome = true
      ∧ t.out = s.out ∧ t.dev.cal = s.dev.cal)
  ∧ (∀ (s : State) (m : Msg) (x : Conn) (d : List Byte), Accepted s tFwBlock m x → s.wf = true → fieldAt m.body 8 4 = 0 →
      zeroAt m.body 12 4 = true → zeroAt m.body 36 4 = true → refLen m 16 = fieldAt m.body 4 4 →
      d.length = fieldAt m.body 4 4 → fieldAt m.body 0 4 = 0 → fieldAt m.body 4 4 % 4096 = 0 → 0 < fieldAt m.body 4 4 →
      fieldAt m.body 4 4 ≤ 65536 → s.dev.session = none →
    ∃ t y, exec (.fwBlock m (some d)) s = .next t ∧ Answered s t m x tFwBlock .ok 0 [] ∧ t.dev.session = some y
      ∧ y.path = .service ∧ (∀ p, p ∈ y.pages ↔ p < fieldAt m.body 4 4 / 4096)
      ∧ flashRead t rStaging 0 (fieldAt m.body 4 4) = d ∧ t.dev.image.pending = false ∧ t.dev.flashA = s.dev.flashA)

/-- R442, R443, R363, R506: a STATUS query answers with the body of its selector; CLEAR_PENDING clears one unit's
mark. It rests on the model's choices of log entry 73. -/
def Obligations.StatusQueriesComplete : Prop :=
  ∀ (s : State) (m : Msg) (x : Conn), Accepted s tStatus m x →
    ((connTenant x).isNone = true ∨ fieldAt m.body 0 2 ∈ [1, 2, 4]) →
    (fieldAt m.body 0 2 = 1 → zeroAt m.body 2 30 = true →
      ∃ t, exec (.statusIdent m) s = .next t ∧ Answered s t m x tStatus .ok 0 (identBody s) ∧ (identBody s).length = 40)
    ∧ (fieldAt m.body 0 2 = 2 → zeroAt m.body 4 28 = true → (planInst s (fieldAt m.body 2 2)).isSome = true →
      ∃ t, exec (.statusPolicy m) s = .next t ∧ Answered s t m x tStatus .ok 0 (policyBody s (fieldAt m.body 2 2)))
    ∧ (fieldAt m.body 0 2 = 3 → zeroAt m.body 2 30 = true →
      ∃ t, exec (.statusDram m) s = .next t ∧ Answered s t m x tStatus .ok 0 (dramBody s))
    ∧ (fieldAt m.body 0 2 = 4 → zeroAt m.body 4 28 = true → (planInst s (fieldAt m.body 2 2)).isSome = true →
      ∃ t, exec (.statusTurn m) s = .next t ∧ Answered s t m x tStatus .ok 0 (inst s (fieldAt m.body 2 2)).lastTurn)
    ∧ (fieldAt m.body 0 2 = 5 → refLen m 8 ≠ 0 → zeroAt m.body 2 6 = true → zeroAt m.body 28 4 = true →
      ∃ t, exec (.statusOwners m true) s = .next t
        ∧ (s.thresher.owners.take (refLen m 8 / 16) ≠ [] → .bulkWrite m.conn ((m.body.drop 8).take 24)
            ((s.thresher.owners.take (refLen m 8 / 16)).map ownerBytes).flatten ∈ t.out)
        ∧ Answered s t m x tStatus .ok 0 (leBytes 4 s.thresher.owners.length
            ++ leBytes 4 (s.thresher.owners.take (refLen m 8 / 16)).length ++ leBytes 8 0))
    ∧ (fieldAt m.body 0 2 = 6 → zeroAt m.body 2 30 = true →
      ∃ t, exec (.statusNightwatch m) s = .next t ∧ ∃ b, Answered s t m x tStatus .ok 0 b ∧ b.length = 96
        ∧ fieldAt b 0 1 = s.nwt.risk % 256)
    ∧ (fieldAt m.body 0 2 = 7 → zeroAt m.body 2 30 = true →
      ∃ t, exec (.statusFallow m) s = .next t
        ∧ Answered s t m x tStatus .ok 0 (unitBytes s.dev.fallow ++ unitBytes s.dev.pend))
    ∧ (fieldAt m.body 0 2 = 8 → zeroAt m.body 5 27 = true → fieldAt m.body 2 1 ≤ 7 →
        fieldAt m.body 3 2 < kindCount (fieldAt m.body 2 1) → pendHas s.dev.pend (fieldAt m.body 2 1) (fieldAt m.body 3 2) = true →
      ∃ t, exec (.statusClearPending m) s = .next t ∧ Answered s t m x tStatus .ok 0 []
        ∧ pendHas t.dev.pend (fieldAt m.body 2 1) (fieldAt m.body 3 2) = false
        ∧ (∀ k i, k ≤ 7 → (k ≠ fieldAt m.body 2 1 ∨ i ≠ fieldAt m.body 3 2) → pendHas t.dev.pend k i = pendHas s.dev.pend k i))
    ∧ (fieldAt m.body 0 2 = 9 → zeroAt m.body 2 30 = true →
      ∃ t, exec (.statusFirmware m) s = .next t ∧ ∃ b, Answered s t m x tStatus .ok 0 b ∧ b.length = 72
        ∧ fieldAt b 68 4 = s.dev.fuseSvn % 2^32)

/-! ### Links, ports and management (chapter 18) -/

/-- R451 to R456: an intact flit in order is taken, acknowledges what it names, lets a flit that waits go and, as a
heartbeat, is noted; a corrupt one is answered with a NAK, a duplicate dropped; a NAK and the end of 2 µs without progress replay; an
acknowledgement that is due leaves; a group trains, ends its training by its good lanes, and trains again when a lane
loses lock. It rests on the model's choices of log entries 15, 94. -/
def Obligations.FurrowLinkComplete : Prop :=
  (∀ (s : State) (g : PortIx) (f : Flit), s.on = true → linkRuns (s.link g) = true → f.bytes.length = 512 →
    (fieldAt f.bytes 504 8 ≠ crc64 (f.bytes.take 504) →
      ∃ t, exec (.flitReceive g f) s = .next t ∧ t.reg .frwGrpCrc 0 [g.val] = (s.reg .frwGrpCrc 0 [g.val]).incSat 1
        ∧ t.out = .nak g (s.link g).rxNext :: s.out ∧ t.links = s.links)
    ∧ (fieldAt f.bytes 504 8 = crc64 (f.bytes.take 504) → fieldAt f.bytes 3 1 ≠ 3 → fieldAt f.bytes 0 3 = (s.link g).rxNext →
      ∃ t, exec (.flitReceive g f) s = .next t ∧ (t.link g).rxNext = seq24 ((s.link g).rxNext + 1)
        ∧ (t.link g).ackDue = true
        ∧ ((s.link g).wait = [] → t.out = s.out
            ∧ ∀ e, e ∈ (t.link g).replay ↔ e ∈ (s.link g).replay ∧ 2^23 ≤ behind24 e.1 (fieldAt f.bytes 4 3))
        ∧ (∀ w, (s.link g).wait = [w] → (s.link g).replay.length ≤ 4096 →
            (∃ e ∈ (s.link g).replay, behind24 e.1 (fieldAt f.bytes 4 3) < 2^23) →
            (t.link g).wait = [] ∧ (t.link g).txNext = seq24 ((s.link g).txNext + 1)
            ∧ ∃ ack, .flit g (flitBytes (s.link g).txNext w.1 ack w.2.1 w.2.2) ∈ t.out)
        ∧ (fieldAt f.bytes 3 1 = 2 → (t.link g).hbAt = some s.pst.up ∧ (t.link g).hbMiss = 0
            ∧ (t.link g).hbState = BitVec.ofNat 8 (fieldAt f.bytes 20 1))
        ∧ (∀ h, h ≠ g.val → t.link h = s.link h) ∧ t.regs = s.regs)
    ∧ (fieldAt f.bytes 504 8 = crc64 (f.bytes.take 504) → fieldAt f.bytes 3 1 ≠ 3 → fieldAt f.bytes 0 3 ≠ (s.link g).rxNext →
        behind24 (fieldAt f.bytes 0 3) (s.link g).rxNext ≤ 2^22 →
      ∃ t, exec (.flitReceive g f) s = .next t ∧ (t.link g).rxNext = (s.link g).rxNext ∧ (t.link g).ackDue = true
        ∧ (t.link g).state = (s.link g).state ∧ ((s.link g).wait = [] → t.out = s.out))
    ∧ (fieldAt f.bytes 504 8 = crc64 (f.bytes.take 504) → fieldAt f.bytes 3 1 ≠ 3 → fieldAt f.bytes 0 3 ≠ (s.link g).rxNext →
        2^22 < behind24 (fieldAt f.bytes 0 3) (s.link g).rxNext →
      ∃ t, exec (.flitReceive g f) s = .next t ∧ (t.link g).state = .training
        ∧ t.reg .frwGrpRetrain 0 [g.val] = (s.reg .frwGrpRetrain 0 [g.val]).incSat 1))
  ∧ (∀ (s : State) (g : PortIx), s.on = true → linkRuns (s.link g) = true →
    (∀ e rest, (s.link g).replay = e :: rest → (s.link g).lastProgress + 2000 ≤ s.pst.up → (s.link g).stuck < 15 →
      ∃ t, exec (.replayTimeout g) s = .next t ∧ .flit g e.2 ∈ t.out ∧ (t.link g).replay = (s.link g).replay
        ∧ (t.link g).stuck = (s.link g).stuck + 1
        ∧ t.reg .frwGrpReplay 0 [g.val] = (s.reg .frwGrpReplay 0 [g.val]).incSat 1)
    ∧ ((s.link g).ackDue = true →
      ∃ t, exec (.ackTick g) s = .next t ∧ t.out = .ack g (seq24 ((s.link g).rxNext + 2^24 - 1)) :: s.out
        ∧ (t.link g).ackDue = false)
    ∧ (∀ lane : PortIx, (s.link g).lanes.getLsbD lane = true →
      ∃ t, exec (.laneLockLoss g lane) s = .next t ∧ (t.link g).state = .training
        ∧ (t.link g).replay = (s.link g).replay
        ∧ t.reg .frwGrpRetrain 0 [g.val] = (s.reg .frwGrpRetrain 0 [g.val]).incSat 1))
  ∧ (∀ (s : State) (g : PortIx), s.on = true → s.dev.started = true → (s.link g).state = .down → groupUsable s g = true →
      (∀ a, (s.link g).lastFail = some a → a + 10^9 ≤ s.pst.up) →
    ∃ t, exec (.trainingStart g) s = .next t ∧ (t.link g).state = .training ∧ (t.link g).trainedAt = s.pst.up
      ∧ t = { s with links := t.links })
  ∧ (∀ (s : State) (g : PortIx) (lanes : BitVec 8) (far : Bool) (peer : Fin 9), s.on = true → (s.link g).state = .training →
    (4 ≤ laneCount lanes → s.pst.up ≤ (s.link g).trainedAt + 30 * 10^6 →
      ∃ t, exec (.trainingEnd g lanes far peer) s = .next t
        ∧ (t.link g).state = (if laneCount lanes = 8 then .up else .degraded) ∧ (t.link g).lanes = lanes
        ∧ (t.link g).gen = (if far = true ∨ s.fld .frwCtrl 0 [] 0 0 = 1 then 1 else 2) ∧ (t.link g).peer = some peer.val
        ∧ (t.link g).replay = (s.link g).replay ∧ (∀ e ∈ (s.link g).replay, .flit g e.2 ∈ t.out) ∧ t.regs = s.regs)
    ∧ ((laneCount lanes < 4 ∨ (s.link g).trainedAt + 30 * 10^6 < s.pst.up) →
      ∃ t, exec (.trainingEnd g lanes far peer) s = .next t ∧ (t.link g).state = .down
        ∧ (t.link g).lastFail = some s.pst.up
        ∧ t.reg .frwGrpRetrain 0 [g.val] = (s.reg .frwGrpRetrain 0 [g.val]).incSat 1))

/-- R457 to R467, R477, R479, R487, R493: an Ethernet port's link, whose loss moves the queue pairs of that port and
no other, an NVMe command's timeout, a drive's removal and a controller that does not reset; the management target's
addresses, sensors, effecter and firmware update; the beacon's mirror and its reads. It rests on the model's choices
of log entries 15, 95, 96, 97, 98, 99, 100, 132. -/
def Obligations.PortsAndManagementComplete : Prop :=
  (∀ (s : State) (p : PortIx), s.on = true →
    (ethUsable s p = true →
      ∃ t, exec (.ethLinkUp p) s = .next t ∧ (t.ethPort p).up = true ∧ t = { s with eth := t.eth })
    ∧ ((s.ethPort p).up = true →
      ∃ t, exec (.ethLinkLoss p) s = .next t ∧ (t.ethPort p).up = false
        ∧ (2 ≤ ((s.ethPort p).fails.filter fun a => decide (s.pst.up < a + 60 * 10^9)).length →
            t.dev.pend.eth = s.dev.pend.eth ||| BitVec.ofNat 8 (2^p.val))
        ∧ (((s.ethPort p).fails.filter fun a => decide (s.pst.up < a + 60 * 10^9)).length < 2 →
            t.dev.pend = s.dev.pend) ∧ t.regs = s.regs
        ∧ ∀ qp, queuePairPort t qp ≠ some p.val ∧ (queuePairPort s qp ≠ some p.val → queuePairPort t qp = queuePairPort s qp)))
  ∧ (∀ (s : State) (p : UnitIx) (l : Fin 2), s.on = true → driveOn s p l = true →
    (∃ t, exec (.nvmeTimeout p l) s = .next t
      ∧ t.reg .pciPortTimeout 0 [p.val] = (s.reg .pciPortTimeout 0 [p.val]).incSat 1 ∧ t.dev = s.dev ∧ driveOn t p l = true)
    ∧ (∃ t, exec (.nvmeDriveRemoval p l) s = .next t ∧ driveOn t p l = false ∧ t.regs = s.regs
      ∧ (anyDrive t = false → t.nwt.nvmeCopy = [] ∧ ∀ x ∈ t.thresher.shards, x.nvme = none)))
  ∧ (∀ (s : State) (p : UnitIx), s.on = true → (s.pciPort p).resetting = [true, false] →
    ∃ t, exec (.nvmeResetTimeout p) s = .next t ∧ driveOn t p 0 = false ∧ driveOn t p 1 = driveOn s p 1
      ∧ t.dev.pend.pcie = s.dev.pend.pcie ||| BitVec.ofNat 4 (2^p.val))
  ∧ (∀ s : State, s.on = true → mgtAnswers s = true →
    (∀ setdasa a, exec (.i3cDaa setdasa a) s = .next { s with mgt := { s.mgt with i3cDa := a } })
    ∧ (∀ eid, exec (.mctpSetEndpointId true eid) s = .next { s with mgt := { s.mgt with smbEid := eid } })
    ∧ (∀ eid, s.mgt.i3cDa ≠ 0 →
        exec (.mctpSetEndpointId false eid) s = .next { s with mgt := { s.mgt with i3cEid := eid } })
    ∧ (∀ smbus id, noImage s = false → (smbus = true ∨ s.mgt.i3cDa ≠ 0) →
        exec (.pldmRequest smbus (.getSensor id)) s = .next { s with out := .pldm smbus (sensorValue s id) :: s.out })
    ∧ (∀ smbus, (smbus = true ∨ s.mgt.i3cDa ≠ 0) → s.dev.session = none →
        ∃ t y, exec (.pldmRequest smbus .requestUpdate) s = .next t ∧ t.dev.session = some y ∧ y.path = .pldm ∧ y.pages = []
          ∧ t.out = .pldm smbus .done :: s.out)
    ∧ (mayRestart s = true →
        exec .pldmActivateFirmware s = .next { s with dev := { s.dev with restartAt := some (s.pst.up + 10^9) } })
    ∧ (∀ (y : Session) (data : List Byte) (len : Nat), s.wf = true → s.dev.session = some y → y.path = .pldm → y.pages = [] → data.length = 4096 →
        len % 4096 = 0 → 8192 ≤ len → len ≤ 2^26 →
        ∃ t z, exec (.pldmFirmwareData 0 data len) s = .next t ∧ t.dev.session = some z ∧ z.pages = [0] ∧ z.len = some len
          ∧ flashRead t rStaging 0 4096 = data ∧ t.out = s.out))
  ∧ (∀ s : State, s.on = true →
    (∃ t, exec .beaconRefresh s = .next t ∧ t = { s with bcn := t.bcn } ∧ t.bcn.gen = s.bcn.gen + 1
      ∧ ∀ a, a < 256 → Memory.get 0 t.bcn.mirror a = BitVec.ofNat 8 (beaconByte s (s.bcn.gen + 1) a))
    ∧ (∀ a, ∃ t, exec (.beaconRead a) s = .next t ∧ t.out = .beacon (Memory.get 0 s.bcn.mirror a.toNat) :: s.out
      ∧ t.reg .bcnReads = s.reg .bcnReads + 1 ∧ t.bcn = s.bcn))

/-- R476 to R481, R488 to R492, R512, R518: MODULE_EN with the input in range starts the die, which counts its start
and ends in BOOT with its compute set and its configuration in effect, in SAFE with the code and the item of what
failed, or in OFF; MODULE_EN low is OFF from every state; a warm restart that has been ordered starts the die again
and keeps the fuses, the flash and the input; SERVICE follows once a data port is UP, SAFE after 5 s without one;
FAILED restarts after 10 s; an image that passes its check is confirmed and its SVN fused, one still unconfirmed at
900 s falls. It rests on the model's choices of log entries 15, 49, 50, 104. -/
def Obligations.StartAndConfirmComplete : Prop :=
  (∀ (s : State) (e : StartEnv), s.power.moduleEn = false → s.on = false → e.inRange = true →
    ∃ t, exec (.moduleEnAssert e) s = .next t ∧ t.power.moduleEn = true ∧ t.dev.serial = s.dev.serial
      ∧ t.dev.fuseSvn = s.dev.fuseSvn ∧ t.mem = [] ∧ t.tallies = [] ∧ t.harts = [] ∧ t.plan = none
      ∧ (t.dev.mode = .boot → t.dev.started = true ∧ computeMissing t = none ∧ t.dev.config ≠ []
          ∧ t.fld .frwCtrl 0 [] 0 0 = bits (fieldAt t.dev.config 67 1) 0 0
          ∧ t.dev.position = fieldAt t.dev.config 66 1 ∧ t.dev.sheaf = fieldAt t.dev.config 64 2)
      ∧ (t.dev.mode = .safe → t.dev.startMs = e.ms ∧ 1 ≤ t.dev.safeCode ∧ t.dev.safeCode ≤ 7)
      ∧ (t.dev.mode = .boot ∨ t.dev.mode = .safe ∨ t.dev.mode = .off)
      ∧ ((e.clockOk = false ∨ e.supPass = 0) → t.dev.mode = .off ∧ t.alm.dieOwns = false)
      ∧ (t.dev.mode ≠ .off → t.alm.dieOwns = true ∧ t.alm.ready = true
          ∧ t.dev.starts = Word.incSat (match pinRead s.alm.mram itemStarts with
              | some b => BitVec.ofNat 32 (fieldAt b 0 4)
              | none => 0) 1))
  ∧ (∀ s : State, ∃ t, exec .moduleEnDeassert s = .next t ∧ t.dev.mode = .off ∧ t.power.moduleEn = false
      ∧ t.alm.dieOwns = false ∧ t.mem = [] ∧ t.regs = [] ∧ t.harts = [] ∧ t.plan = none ∧ t.alm.mram = s.alm.mram
      ∧ t.dev.flashA = s.dev.flashA ∧ t.dev.flashB = s.dev.flashB ∧ t.dev.fuseSvn = s.dev.fuseSvn
      ∧ t.dev.serial = s.dev.serial)
  ∧ (∀ (s : State) (e : StartEnv) (a : Nat), s.on = true → s.dev.restartAt = some a → a ≤ s.pst.up →
    ∃ t, exec (.warmRestart e) s = .next t ∧ t.dev.restartAt = none ∧ t.dev.serial = s.dev.serial
      ∧ t.dev.fuseSvn = s.dev.fuseSvn ∧ t.power = s.power ∧ t.mem = [] ∧ t.tallies = [] ∧ t.harts = [] ∧ t.plan = none
      ∧ (t.dev.mode = .boot ∨ t.dev.mode = .safe ∨ t.dev.mode = .off))
  ∧ (∀ (s : State) (ms : Nat), s.dev.mode = .boot → s.dev.started = true →
    (computeMissing s = none → dataPortUp s = true →
      ∃ t, exec (.serviceEntry ms) s = .next t ∧ t = { s with dev := t.dev } ∧ t.dev.mode = .service ∧ t.dev.startMs = ms
        ∧ t.dev.upAt = s.pst.up ∧ (s.dev.image.confirmed = true → t.dev.confirmedFallow = s.dev.fallow))
    ∧ (dataPortUp s = false → 5 * 10^9 ≤ s.pst.up →
      ∃ t, exec .noDataPortTimeout s = .next t ∧ t.dev.mode = .safe ∧ t.dev.safeCode = 6 ∧ t.dev.safeItem = 0))
  ∧ (∀ s : State, s.dev.mode = .failed → s.dev.failedAt + 10 * 10^9 ≤ s.pst.up →
    exec .failedTimeout s = .next { s with dev := { s.dev with restartAt := some s.pst.up } })
  ∧ (∀ s : State, s.dev.mode = .service → s.dev.image.confirmed = false →
    (s.dev.nextConfirm.getD (s.dev.upAt + 300 * 10^9) ≤ s.pst.up →
      (confirmPasses s = true →
        ∃ t, exec .confirmCheck s = .next t ∧ t.dev.image = { s.dev.image with confirmed := true }
          ∧ t.dev.fuseSvn = max s.dev.fuseSvn (min s.dev.image.svnActive s.dev.image.svnFallback)
          ∧ t.dev.confirmedFallow = s.dev.fallow ∧ t.dev.mode = .service)
      ∧ (confirmPasses s = false →
        exec .confirmCheck s = .next { s with dev := { s.dev with nextConfirm := some (s.pst.up + 60 * 10^9) } }))
    ∧ (s.dev.upAt + 900 * 10^9 ≤ s.pst.up →
      ∃ t, exec .confirmDeadline s = .next t ∧ t.dev.restartAt = some s.pst.up ∧ t.out = .ownFailure :: s.out
        ∧ t.dev.fuseSvn = s.dev.fuseSvn))
end

