-- ==== Sys2Proof/Laws/Mem.lean ====
section
/-! SUPPORT. The laws of the sparse data: what a byte reads as after a write, that every write keeps the canonical form,
and what an index of a sparse map reads as after an update. -/

namespace Sys2Proof.Machine

namespace Memory

theorem get_put_same (d : Byte) (m : Memory) (a : Nat) (b : Byte) (h : wf d m = true) : get d (put d m a b) a = b := by
  induction m with
  | nil => by_cases e : b = d <;> simp [put, get, e]
  | cons p t ih =>
    obtain ⟨k, v⟩ := p
    simp only [wf, Bool.and_eq_true, decide_eq_true_eq] at h
    obtain ⟨⟨hv, ha⟩, ht⟩ := h
    have low : ∀ (t : Memory) (lo : Nat), above lo t = true → wf d t = true → ∀ x, x ≤ lo → get d t x = d := by
      intro t
      induction t with
      | nil => intros; rfl
      | cons q r ihr =>
        intro lo h1 h2 x hx
        obtain ⟨j, w⟩ := q
        simp only [above, decide_eq_true_eq] at h1
        simp only [wf, Bool.and_eq_true, decide_eq_true_eq] at h2
        have : x ≠ j := by omega
        simp only [get, if_neg this]
        exact ihr j h2.1.2 h2.2 x (by omega)
    by_cases h1 : a < k
    · by_cases e : b = d
      · subst e
        have : a ≠ k := by omega
        simp only [put, if_pos h1, if_true, get, if_neg this]
        exact low t k ha ht a (by omega)
      · simp [put, h1, e, get]
    · by_cases h2 : a = k
      · subst h2
        by_cases e : b = d
        · subst e
          simp only [put, if_neg h1, if_true]
          exact low t a ha ht a (by omega)
        · simp [put, e, get]
      · simp only [put, if_neg h1, if_neg h2, get]
        exact ih ht

theorem get_put_ne (d : Byte) (m : Memory) (a x : Nat) (b : Byte) (hx : x ≠ a) :
    get d (put d m a b) x = get d m x := by
  induction m with
  | nil => by_cases e : b = d <;> simp [put, get, e, hx]
  | cons p t ih =>
    obtain ⟨k, v⟩ := p
    by_cases h1 : a < k
    · by_cases e : b = d <;> simp [put, h1, e, get, hx]
    · by_cases h2 : a = k
      · subst h2
        by_cases e : b = d <;> simp [put, e, get, hx]
      · simp [put, h1, h2, get, ih]

theorem above_put (d : Byte) (m : Memory) (a lo : Nat) (b : Byte) (h : above lo m = true) (ha : lo < a)
    (hw : wf d m = true) : above lo (put d m a b) = true := by
  cases m with
  | nil => by_cases e : b = d <;> simp [put, above, e, ha]
  | cons p t =>
    obtain ⟨k, v⟩ := p
    simp only [above, decide_eq_true_eq] at h
    by_cases h1 : a < k
    · by_cases e : b = d <;> simp [put, h1, e, above, h, ha]
    · by_cases h2 : a = k
      · subst h2
        by_cases e : b = d
        · simp only [put, Nat.lt_irrefl, if_false, if_true, e]
          simp only [wf, Bool.and_eq_true] at hw
          cases t with
          | nil => rfl
          | cons q r =>
            obtain ⟨j, w⟩ := q
            have := hw.1.2
            simp only [above, decide_eq_true_eq] at this ⊢
            omega
        · simp [put, e, above, h]
      · simp [put, h1, h2, above, h]

/-- Writing one byte keeps the canonical form. -/
theorem wf_put (d : Byte) (m : Memory) (a : Nat) (b : Byte) (h : wf d m = true) : wf d (put d m a b) = true := by
  induction m with
  | nil => by_cases e : b = d <;> simp [put, wf, above, e]
  | cons p t ih =>
    obtain ⟨k, v⟩ := p
    have h' := h
    simp only [wf, Bool.and_eq_true, decide_eq_true_eq] at h
    obtain ⟨⟨hv, ha⟩, ht⟩ := h
    by_cases h1 : a < k
    · by_cases e : b = d
      · simp [put, h1, e, h']
      · have : above a ((k, v) :: t) = true := by simp [above, h1]
        simp [put, h1, e, wf, hv, ha, ht, this]
    · by_cases h2 : a = k
      · subst h2
        by_cases e : b = d <;> simp [put, e, wf, ha, ht]
      · have := above_put d t a k b ha (by omega) ht
        simp [put, h1, h2, wf, hv, this, ih ht]

/-- Writing a list of bytes keeps the canonical form. -/
theorem wf_write (d : Byte) (l : List Byte) : ∀ (m : Memory) (a : Nat), wf d m = true → wf d (write d m a l) = true := by
  induction l with
  | nil => intro m a h; exact h
  | cons b t ih => intro m a h; exact ih _ _ (wf_put d m a b h)

/-- A byte outside the addresses written reads as before. -/
theorem get_write_outside (d : Byte) (l : List Byte) :
    ∀ (m : Memory) (a x : Nat), (x < a ∨ a + l.length ≤ x) → get d (write d m a l) x = get d m x := by
  induction l with
  | nil => intro m a x _; rfl
  | cons b t ih =>
    intro m a x h
    simp only [List.length_cons] at h
    rw [write, ih _ _ _ (by omega), get_put_ne _ _ _ _ _ (by omega)]

/-- A byte among the addresses written reads as what was written there. -/
theorem get_write_inside (d : Byte) (l : List Byte) :
    ∀ (m : Memory) (a i : Nat), wf d m = true → (h : i < l.length) → get d (write d m a l) (a + i) = l[i] := by
  induction l with
  | nil => intro m a i _ h; simp at h
  | cons b t ih =>
    intro m a i hm h
    cases i with
    | zero =>
      rw [write, get_write_outside _ _ _ _ _ (by omega)]
      simpa using get_put_same d m a b hm
    | succ i =>
      have := ih (put d m a b) (a + 1) i (wf_put d m a b hm) (by simpa using h)
      rw [write, show a + (i + 1) = a + 1 + i by omega, this]
      simp

end Memory

namespace SMap

variable {α : Type}

theorem find_set_same (m : SMap α) (a : Nat) (v : α) : find (set m a v) a = some v := by
  induction m with
  | nil => simp [set, find]
  | cons p t ih =>
    obtain ⟨k, w⟩ := p
    by_cases h1 : a < k
    · simp [set, h1, find]
    · by_cases h2 : a = k
      · simp [set, h2, find]
      · simp [set, h1, h2, find, ih]

theorem find_set_ne (m : SMap α) (a b : Nat) (v : α) (h : b ≠ a) : find (set m a v) b = find m b := by
  induction m with
  | nil => simp [set, find, h]
  | cons p t ih =>
    obtain ⟨k, w⟩ := p
    by_cases h1 : a < k
    · simp [set, h1, find, h]
    · by_cases h2 : a = k
      · subst h2; simp [set, find, h]
      · simp [set, h1, h2, find, ih]

@[simp] theorem get_set_same (d : α) (m : SMap α) (a : Nat) (v : α) : get d (set m a v) a = v := by
  simp [get, find_set_same]

theorem get_set_ne (d : α) (m : SMap α) (a b : Nat) (v : α) (h : b ≠ a) : get d (set m a v) b = get d m b := by
  simp [get, find_set_ne _ _ _ _ h]

/-- Dropping every index that a test names, an index that it does not name reads as before. -/
theorem find_filter (m : SMap α) (p : Nat → Bool) (a : Nat) (h : p a = true) :
    find (m.filter fun e => p e.1) a = find m a := by
  induction m with
  | nil => rfl
  | cons q t ih =>
    obtain ⟨k, w⟩ := q
    by_cases hk : p k = true
    · simp only [List.filter_cons, hk, if_true, find, ih]
    · have : a ≠ k := fun e => hk (e ▸ h)
      simp only [List.filter_cons, hk, find, if_neg this]
      simpa using ih

/-- An index that the test drops is listed no more. -/
theorem find_filter_none (m : SMap α) (p : Nat → Bool) (a : Nat) (h : p a = false) :
    find (m.filter fun e => p e.1) a = none := by
  induction m with
  | nil => rfl
  | cons q t ih =>
    obtain ⟨k, w⟩ := q
    by_cases hk : p k = true
    · have : a ≠ k := fun e => by rw [e, hk] at h; cases h
      simp only [List.filter_cons, hk, if_true, find, if_neg this]
      exact ih
    · simp only [List.filter_cons, hk]
      simpa using ih

end SMap

end Sys2Proof.Machine
end

