-- ==== Sys2Proof/Laws/State.lean ====
section
/-! SUPPORT. What each update of the state leaves alone, one lemma a field, and what a part reads as after its own update. -/

namespace Sys2Proof.Machine.State

@[simp] theorem modCore_pending (s : State) (k : Nat) (f : Core → Core) : (s.modCore k f).pending = s.pending := rfl
@[simp] theorem modCore_regs (s : State) (k : Nat) (f : Core → Core) : (s.modCore k f).regs = s.regs := rfl
@[simp] theorem modCore_snaps (s : State) (k : Nat) (f : Core → Core) : (s.modCore k f).snaps = s.snaps := rfl
@[simp] theorem modCore_mem (s : State) (k : Nat) (f : Core → Core) : (s.modCore k f).mem = s.mem := rfl
@[simp] theorem modCore_poison (s : State) (k : Nat) (f : Core → Core) : (s.modCore k f).poison = s.poison := rfl
@[simp] theorem modCore_clusters (s : State) (k : Nat) (f : Core → Core) : (s.modCore k f).clusters = s.clusters := rfl
@[simp] theorem modCore_harts (s : State) (k : Nat) (f : Core → Core) : (s.modCore k f).harts = s.harts := rfl
@[simp] theorem modCore_tallies (s : State) (k : Nat) (f : Core → Core) : (s.modCore k f).tallies = s.tallies := rfl
@[simp] theorem modCore_waits (s : State) (k : Nat) (f : Core → Core) : (s.modCore k f).waits = s.waits := rfl
@[simp] theorem modCore_watches (s : State) (k : Nat) (f : Core → Core) : (s.modCore k f).watches = s.watches := rfl
@[simp] theorem modCore_dram (s : State) (k : Nat) (f : Core → Core) : (s.modCore k f).dram = s.dram := rfl
@[simp] theorem modCore_tiering (s : State) (k : Nat) (f : Core → Core) : (s.modCore k f).tiering = s.tiering := rfl
@[simp] theorem modCore_plan (s : State) (k : Nat) (f : Core → Core) : (s.modCore k f).plan = s.plan := rfl
@[simp] theorem modCore_fenced (s : State) (k : Nat) (f : Core → Core) : (s.modCore k f).fenced = s.fenced := rfl
@[simp] theorem modCore_pst (s : State) (k : Nat) (f : Core → Core) : (s.modCore k f).pst = s.pst := rfl
@[simp] theorem modCore_issue (s : State) (k : Nat) (f : Core → Core) : (s.modCore k f).issue = s.issue := rfl
@[simp] theorem modCore_alm (s : State) (k : Nat) (f : Core → Core) : (s.modCore k f).alm = s.alm := rfl
@[simp] theorem modCore_power (s : State) (k : Nat) (f : Core → Core) : (s.modCore k f).power = s.power := rfl
@[simp] theorem modCore_aclk (s : State) (k : Nat) (f : Core → Core) : (s.modCore k f).aclk = s.aclk := rfl
@[simp] theorem modCore_links (s : State) (k : Nat) (f : Core → Core) : (s.modCore k f).links = s.links := rfl
@[simp] theorem modCore_eth (s : State) (k : Nat) (f : Core → Core) : (s.modCore k f).eth = s.eth := rfl
@[simp] theorem modCore_pci (s : State) (k : Nat) (f : Core → Core) : (s.modCore k f).pci = s.pci := rfl
@[simp] theorem modCore_mgt (s : State) (k : Nat) (f : Core → Core) : (s.modCore k f).mgt = s.mgt := rfl
@[simp] theorem modCore_bcn (s : State) (k : Nat) (f : Core → Core) : (s.modCore k f).bcn = s.bcn := rfl
@[simp] theorem modCore_dev (s : State) (k : Nat) (f : Core → Core) : (s.modCore k f).dev = s.dev := rfl
@[simp] theorem modCore_router (s : State) (k : Nat) (f : Core → Core) : (s.modCore k f).router = s.router := rfl
@[simp] theorem modCore_thresher (s : State) (k : Nat) (f : Core → Core) : (s.modCore k f).thresher = s.thresher := rfl
@[simp] theorem modCore_insts (s : State) (k : Nat) (f : Core → Core) : (s.modCore k f).insts = s.insts := rfl
@[simp] theorem modCore_serving (s : State) (k : Nat) (f : Core → Core) : (s.modCore k f).serving = s.serving := rfl
@[simp] theorem modCore_service (s : State) (k : Nat) (f : Core → Core) : (s.modCore k f).service = s.service := rfl
@[simp] theorem modCore_nwt (s : State) (k : Nat) (f : Core → Core) : (s.modCore k f).nwt = s.nwt := rfl
@[simp] theorem modCore_out (s : State) (k : Nat) (f : Core → Core) : (s.modCore k f).out = s.out := rfl
@[simp] theorem modCore_freeCtr (s : State) (k : Nat) (f : Core → Core) : (s.modCore k f).freeCtr = s.freeCtr := rfl

@[simp] theorem modMxe_pending (s : State) (k : Nat) (f : Mxe → Mxe) : (s.modMxe k f).pending = s.pending := rfl
@[simp] theorem modMxe_regs (s : State) (k : Nat) (f : Mxe → Mxe) : (s.modMxe k f).regs = s.regs := rfl
@[simp] theorem modMxe_snaps (s : State) (k : Nat) (f : Mxe → Mxe) : (s.modMxe k f).snaps = s.snaps := rfl
@[simp] theorem modMxe_mem (s : State) (k : Nat) (f : Mxe → Mxe) : (s.modMxe k f).mem = s.mem := rfl
@[simp] theorem modMxe_poison (s : State) (k : Nat) (f : Mxe → Mxe) : (s.modMxe k f).poison = s.poison := rfl
@[simp] theorem modMxe_clusters (s : State) (k : Nat) (f : Mxe → Mxe) : (s.modMxe k f).clusters = s.clusters := rfl
@[simp] theorem modMxe_harts (s : State) (k : Nat) (f : Mxe → Mxe) : (s.modMxe k f).harts = s.harts := rfl
@[simp] theorem modMxe_tallies (s : State) (k : Nat) (f : Mxe → Mxe) : (s.modMxe k f).tallies = s.tallies := rfl
@[simp] theorem modMxe_waits (s : State) (k : Nat) (f : Mxe → Mxe) : (s.modMxe k f).waits = s.waits := rfl
@[simp] theorem modMxe_watches (s : State) (k : Nat) (f : Mxe → Mxe) : (s.modMxe k f).watches = s.watches := rfl
@[simp] theorem modMxe_dram (s : State) (k : Nat) (f : Mxe → Mxe) : (s.modMxe k f).dram = s.dram := rfl
@[simp] theorem modMxe_tiering (s : State) (k : Nat) (f : Mxe → Mxe) : (s.modMxe k f).tiering = s.tiering := rfl
@[simp] theorem modMxe_plan (s : State) (k : Nat) (f : Mxe → Mxe) : (s.modMxe k f).plan = s.plan := rfl
@[simp] theorem modMxe_fenced (s : State) (k : Nat) (f : Mxe → Mxe) : (s.modMxe k f).fenced = s.fenced := rfl
@[simp] theorem modMxe_pst (s : State) (k : Nat) (f : Mxe → Mxe) : (s.modMxe k f).pst = s.pst := rfl
@[simp] theorem modMxe_issue (s : State) (k : Nat) (f : Mxe → Mxe) : (s.modMxe k f).issue = s.issue := rfl
@[simp] theorem modMxe_alm (s : State) (k : Nat) (f : Mxe → Mxe) : (s.modMxe k f).alm = s.alm := rfl
@[simp] theorem modMxe_power (s : State) (k : Nat) (f : Mxe → Mxe) : (s.modMxe k f).power = s.power := rfl
@[simp] theorem modMxe_aclk (s : State) (k : Nat) (f : Mxe → Mxe) : (s.modMxe k f).aclk = s.aclk := rfl
@[simp] theorem modMxe_links (s : State) (k : Nat) (f : Mxe → Mxe) : (s.modMxe k f).links = s.links := rfl
@[simp] theorem modMxe_eth (s : State) (k : Nat) (f : Mxe → Mxe) : (s.modMxe k f).eth = s.eth := rfl
@[simp] theorem modMxe_pci (s : State) (k : Nat) (f : Mxe → Mxe) : (s.modMxe k f).pci = s.pci := rfl
@[simp] theorem modMxe_mgt (s : State) (k : Nat) (f : Mxe → Mxe) : (s.modMxe k f).mgt = s.mgt := rfl
@[simp] theorem modMxe_bcn (s : State) (k : Nat) (f : Mxe → Mxe) : (s.modMxe k f).bcn = s.bcn := rfl
@[simp] theorem modMxe_dev (s : State) (k : Nat) (f : Mxe → Mxe) : (s.modMxe k f).dev = s.dev := rfl
@[simp] theorem modMxe_router (s : State) (k : Nat) (f : Mxe → Mxe) : (s.modMxe k f).router = s.router := rfl
@[simp] theorem modMxe_thresher (s : State) (k : Nat) (f : Mxe → Mxe) : (s.modMxe k f).thresher = s.thresher := rfl
@[simp] theorem modMxe_insts (s : State) (k : Nat) (f : Mxe → Mxe) : (s.modMxe k f).insts = s.insts := rfl
@[simp] theorem modMxe_serving (s : State) (k : Nat) (f : Mxe → Mxe) : (s.modMxe k f).serving = s.serving := rfl
@[simp] theorem modMxe_service (s : State) (k : Nat) (f : Mxe → Mxe) : (s.modMxe k f).service = s.service := rfl
@[simp] theorem modMxe_nwt (s : State) (k : Nat) (f : Mxe → Mxe) : (s.modMxe k f).nwt = s.nwt := rfl
@[simp] theorem modMxe_out (s : State) (k : Nat) (f : Mxe → Mxe) : (s.modMxe k f).out = s.out := rfl
@[simp] theorem modMxe_freeCtr (s : State) (k : Nat) (f : Mxe → Mxe) : (s.modMxe k f).freeCtr = s.freeCtr := rfl

@[simp] theorem modVxe_pending (s : State) (k : Nat) (f : Vxe → Vxe) : (s.modVxe k f).pending = s.pending := rfl
@[simp] theorem modVxe_regs (s : State) (k : Nat) (f : Vxe → Vxe) : (s.modVxe k f).regs = s.regs := rfl
@[simp] theorem modVxe_snaps (s : State) (k : Nat) (f : Vxe → Vxe) : (s.modVxe k f).snaps = s.snaps := rfl
@[simp] theorem modVxe_mem (s : State) (k : Nat) (f : Vxe → Vxe) : (s.modVxe k f).mem = s.mem := rfl
@[simp] theorem modVxe_poison (s : State) (k : Nat) (f : Vxe → Vxe) : (s.modVxe k f).poison = s.poison := rfl
@[simp] theorem modVxe_clusters (s : State) (k : Nat) (f : Vxe → Vxe) : (s.modVxe k f).clusters = s.clusters := rfl
@[simp] theorem modVxe_harts (s : State) (k : Nat) (f : Vxe → Vxe) : (s.modVxe k f).harts = s.harts := rfl
@[simp] theorem modVxe_tallies (s : State) (k : Nat) (f : Vxe → Vxe) : (s.modVxe k f).tallies = s.tallies := rfl
@[simp] theorem modVxe_waits (s : State) (k : Nat) (f : Vxe → Vxe) : (s.modVxe k f).waits = s.waits := rfl
@[simp] theorem modVxe_watches (s : State) (k : Nat) (f : Vxe → Vxe) : (s.modVxe k f).watches = s.watches := rfl
@[simp] theorem modVxe_dram (s : State) (k : Nat) (f : Vxe → Vxe) : (s.modVxe k f).dram = s.dram := rfl
@[simp] theorem modVxe_tiering (s : State) (k : Nat) (f : Vxe → Vxe) : (s.modVxe k f).tiering = s.tiering := rfl
@[simp] theorem modVxe_plan (s : State) (k : Nat) (f : Vxe → Vxe) : (s.modVxe k f).plan = s.plan := rfl
@[simp] theorem modVxe_fenced (s : State) (k : Nat) (f : Vxe → Vxe) : (s.modVxe k f).fenced = s.fenced := rfl
@[simp] theorem modVxe_pst (s : State) (k : Nat) (f : Vxe → Vxe) : (s.modVxe k f).pst = s.pst := rfl
@[simp] theorem modVxe_issue (s : State) (k : Nat) (f : Vxe → Vxe) : (s.modVxe k f).issue = s.issue := rfl
@[simp] theorem modVxe_alm (s : State) (k : Nat) (f : Vxe → Vxe) : (s.modVxe k f).alm = s.alm := rfl
@[simp] theorem modVxe_power (s : State) (k : Nat) (f : Vxe → Vxe) : (s.modVxe k f).power = s.power := rfl
@[simp] theorem modVxe_aclk (s : State) (k : Nat) (f : Vxe → Vxe) : (s.modVxe k f).aclk = s.aclk := rfl
@[simp] theorem modVxe_links (s : State) (k : Nat) (f : Vxe → Vxe) : (s.modVxe k f).links = s.links := rfl
@[simp] theorem modVxe_eth (s : State) (k : Nat) (f : Vxe → Vxe) : (s.modVxe k f).eth = s.eth := rfl
@[simp] theorem modVxe_pci (s : State) (k : Nat) (f : Vxe → Vxe) : (s.modVxe k f).pci = s.pci := rfl
@[simp] theorem modVxe_mgt (s : State) (k : Nat) (f : Vxe → Vxe) : (s.modVxe k f).mgt = s.mgt := rfl
@[simp] theorem modVxe_bcn (s : State) (k : Nat) (f : Vxe → Vxe) : (s.modVxe k f).bcn = s.bcn := rfl
@[simp] theorem modVxe_dev (s : State) (k : Nat) (f : Vxe → Vxe) : (s.modVxe k f).dev = s.dev := rfl
@[simp] theorem modVxe_router (s : State) (k : Nat) (f : Vxe → Vxe) : (s.modVxe k f).router = s.router := rfl
@[simp] theorem modVxe_thresher (s : State) (k : Nat) (f : Vxe → Vxe) : (s.modVxe k f).thresher = s.thresher := rfl
@[simp] theorem modVxe_insts (s : State) (k : Nat) (f : Vxe → Vxe) : (s.modVxe k f).insts = s.insts := rfl
@[simp] theorem modVxe_serving (s : State) (k : Nat) (f : Vxe → Vxe) : (s.modVxe k f).serving = s.serving := rfl
@[simp] theorem modVxe_service (s : State) (k : Nat) (f : Vxe → Vxe) : (s.modVxe k f).service = s.service := rfl
@[simp] theorem modVxe_nwt (s : State) (k : Nat) (f : Vxe → Vxe) : (s.modVxe k f).nwt = s.nwt := rfl
@[simp] theorem modVxe_out (s : State) (k : Nat) (f : Vxe → Vxe) : (s.modVxe k f).out = s.out := rfl
@[simp] theorem modVxe_freeCtr (s : State) (k : Nat) (f : Vxe → Vxe) : (s.modVxe k f).freeCtr = s.freeCtr := rfl

@[simp] theorem modStr_pending (s : State) (k u : Nat) (f : StrUnit → StrUnit) : (s.modStr k u f).pending = s.pending := rfl
@[simp] theorem modStr_regs (s : State) (k u : Nat) (f : StrUnit → StrUnit) : (s.modStr k u f).regs = s.regs := rfl
@[simp] theorem modStr_snaps (s : State) (k u : Nat) (f : StrUnit → StrUnit) : (s.modStr k u f).snaps = s.snaps := rfl
@[simp] theorem modStr_mem (s : State) (k u : Nat) (f : StrUnit → StrUnit) : (s.modStr k u f).mem = s.mem := rfl
@[simp] theorem modStr_poison (s : State) (k u : Nat) (f : StrUnit → StrUnit) : (s.modStr k u f).poison = s.poison := rfl
@[simp] theorem modStr_clusters (s : State) (k u : Nat) (f : StrUnit → StrUnit) : (s.modStr k u f).clusters = s.clusters := rfl
@[simp] theorem modStr_harts (s : State) (k u : Nat) (f : StrUnit → StrUnit) : (s.modStr k u f).harts = s.harts := rfl
@[simp] theorem modStr_tallies (s : State) (k u : Nat) (f : StrUnit → StrUnit) : (s.modStr k u f).tallies = s.tallies := rfl
@[simp] theorem modStr_waits (s : State) (k u : Nat) (f : StrUnit → StrUnit) : (s.modStr k u f).waits = s.waits := rfl
@[simp] theorem modStr_watches (s : State) (k u : Nat) (f : StrUnit → StrUnit) : (s.modStr k u f).watches = s.watches := rfl
@[simp] theorem modStr_dram (s : State) (k u : Nat) (f : StrUnit → StrUnit) : (s.modStr k u f).dram = s.dram := rfl
@[simp] theorem modStr_tiering (s : State) (k u : Nat) (f : StrUnit → StrUnit) : (s.modStr k u f).tiering = s.tiering := rfl
@[simp] theorem modStr_plan (s : State) (k u : Nat) (f : StrUnit → StrUnit) : (s.modStr k u f).plan = s.plan := rfl
@[simp] theorem modStr_fenced (s : State) (k u : Nat) (f : StrUnit → StrUnit) : (s.modStr k u f).fenced = s.fenced := rfl
@[simp] theorem modStr_pst (s : State) (k u : Nat) (f : StrUnit → StrUnit) : (s.modStr k u f).pst = s.pst := rfl
@[simp] theorem modStr_issue (s : State) (k u : Nat) (f : StrUnit → StrUnit) : (s.modStr k u f).issue = s.issue := rfl
@[simp] theorem modStr_alm (s : State) (k u : Nat) (f : StrUnit → StrUnit) : (s.modStr k u f).alm = s.alm := rfl
@[simp] theorem modStr_power (s : State) (k u : Nat) (f : StrUnit → StrUnit) : (s.modStr k u f).power = s.power := rfl
@[simp] theorem modStr_aclk (s : State) (k u : Nat) (f : StrUnit → StrUnit) : (s.modStr k u f).aclk = s.aclk := rfl
@[simp] theorem modStr_links (s : State) (k u : Nat) (f : StrUnit → StrUnit) : (s.modStr k u f).links = s.links := rfl
@[simp] theorem modStr_eth (s : State) (k u : Nat) (f : StrUnit → StrUnit) : (s.modStr k u f).eth = s.eth := rfl
@[simp] theorem modStr_pci (s : State) (k u : Nat) (f : StrUnit → StrUnit) : (s.modStr k u f).pci = s.pci := rfl
@[simp] theorem modStr_mgt (s : State) (k u : Nat) (f : StrUnit → StrUnit) : (s.modStr k u f).mgt = s.mgt := rfl
@[simp] theorem modStr_bcn (s : State) (k u : Nat) (f : StrUnit → StrUnit) : (s.modStr k u f).bcn = s.bcn := rfl
@[simp] theorem modStr_dev (s : State) (k u : Nat) (f : StrUnit → StrUnit) : (s.modStr k u f).dev = s.dev := rfl
@[simp] theorem modStr_router (s : State) (k u : Nat) (f : StrUnit → StrUnit) : (s.modStr k u f).router = s.router := rfl
@[simp] theorem modStr_thresher (s : State) (k u : Nat) (f : StrUnit → StrUnit) : (s.modStr k u f).thresher = s.thresher := rfl
@[simp] theorem modStr_insts (s : State) (k u : Nat) (f : StrUnit → StrUnit) : (s.modStr k u f).insts = s.insts := rfl
@[simp] theorem modStr_serving (s : State) (k u : Nat) (f : StrUnit → StrUnit) : (s.modStr k u f).serving = s.serving := rfl
@[simp] theorem modStr_service (s : State) (k u : Nat) (f : StrUnit → StrUnit) : (s.modStr k u f).service = s.service := rfl
@[simp] theorem modStr_nwt (s : State) (k u : Nat) (f : StrUnit → StrUnit) : (s.modStr k u f).nwt = s.nwt := rfl
@[simp] theorem modStr_out (s : State) (k u : Nat) (f : StrUnit → StrUnit) : (s.modStr k u f).out = s.out := rfl
@[simp] theorem modStr_freeCtr (s : State) (k u : Nat) (f : StrUnit → StrUnit) : (s.modStr k u f).freeCtr = s.freeCtr := rfl

@[simp] theorem modCluster_pending (s : State) (c : Nat) (f : Cluster → Cluster) : (s.modCluster c f).pending = s.pending := rfl
@[simp] theorem modCluster_regs (s : State) (c : Nat) (f : Cluster → Cluster) : (s.modCluster c f).regs = s.regs := rfl
@[simp] theorem modCluster_snaps (s : State) (c : Nat) (f : Cluster → Cluster) : (s.modCluster c f).snaps = s.snaps := rfl
@[simp] theorem modCluster_mem (s : State) (c : Nat) (f : Cluster → Cluster) : (s.modCluster c f).mem = s.mem := rfl
@[simp] theorem modCluster_poison (s : State) (c : Nat) (f : Cluster → Cluster) : (s.modCluster c f).poison = s.poison := rfl
@[simp] theorem modCluster_cores (s : State) (c : Nat) (f : Cluster → Cluster) : (s.modCluster c f).cores = s.cores := rfl
@[simp] theorem modCluster_harts (s : State) (c : Nat) (f : Cluster → Cluster) : (s.modCluster c f).harts = s.harts := rfl
@[simp] theorem modCluster_tallies (s : State) (c : Nat) (f : Cluster → Cluster) : (s.modCluster c f).tallies = s.tallies := rfl
@[simp] theorem modCluster_waits (s : State) (c : Nat) (f : Cluster → Cluster) : (s.modCluster c f).waits = s.waits := rfl
@[simp] theorem modCluster_watches (s : State) (c : Nat) (f : Cluster → Cluster) : (s.modCluster c f).watches = s.watches := rfl
@[simp] theorem modCluster_dram (s : State) (c : Nat) (f : Cluster → Cluster) : (s.modCluster c f).dram = s.dram := rfl
@[simp] theorem modCluster_tiering (s : State) (c : Nat) (f : Cluster → Cluster) : (s.modCluster c f).tiering = s.tiering := rfl
@[simp] theorem modCluster_plan (s : State) (c : Nat) (f : Cluster → Cluster) : (s.modCluster c f).plan = s.plan := rfl
@[simp] theorem modCluster_fenced (s : State) (c : Nat) (f : Cluster → Cluster) : (s.modCluster c f).fenced = s.fenced := rfl
@[simp] theorem modCluster_pst (s : State) (c : Nat) (f : Cluster → Cluster) : (s.modCluster c f).pst = s.pst := rfl
@[simp] theorem modCluster_issue (s : State) (c : Nat) (f : Cluster → Cluster) : (s.modCluster c f).issue = s.issue := rfl
@[simp] theorem modCluster_alm (s : State) (c : Nat) (f : Cluster → Cluster) : (s.modCluster c f).alm = s.alm := rfl
@[simp] theorem modCluster_power (s : State) (c : Nat) (f : Cluster → Cluster) : (s.modCluster c f).power = s.power := rfl
@[simp] theorem modCluster_aclk (s : State) (c : Nat) (f : Cluster → Cluster) : (s.modCluster c f).aclk = s.aclk := rfl
@[simp] theorem modCluster_links (s : State) (c : Nat) (f : Cluster → Cluster) : (s.modCluster c f).links = s.links := rfl
@[simp] theorem modCluster_eth (s : State) (c : Nat) (f : Cluster → Cluster) : (s.modCluster c f).eth = s.eth := rfl
@[simp] theorem modCluster_pci (s : State) (c : Nat) (f : Cluster → Cluster) : (s.modCluster c f).pci = s.pci := rfl
@[simp] theorem modCluster_mgt (s : State) (c : Nat) (f : Cluster → Cluster) : (s.modCluster c f).mgt = s.mgt := rfl
@[simp] theorem modCluster_bcn (s : State) (c : Nat) (f : Cluster → Cluster) : (s.modCluster c f).bcn = s.bcn := rfl
@[simp] theorem modCluster_dev (s : State) (c : Nat) (f : Cluster → Cluster) : (s.modCluster c f).dev = s.dev := rfl
@[simp] theorem modCluster_router (s : State) (c : Nat) (f : Cluster → Cluster) : (s.modCluster c f).router = s.router := rfl
@[simp] theorem modCluster_thresher (s : State) (c : Nat) (f : Cluster → Cluster) : (s.modCluster c f).thresher = s.thresher := rfl
@[simp] theorem modCluster_insts (s : State) (c : Nat) (f : Cluster → Cluster) : (s.modCluster c f).insts = s.insts := rfl
@[simp] theorem modCluster_serving (s : State) (c : Nat) (f : Cluster → Cluster) : (s.modCluster c f).serving = s.serving := rfl
@[simp] theorem modCluster_service (s : State) (c : Nat) (f : Cluster → Cluster) : (s.modCluster c f).service = s.service := rfl
@[simp] theorem modCluster_nwt (s : State) (c : Nat) (f : Cluster → Cluster) : (s.modCluster c f).nwt = s.nwt := rfl
@[simp] theorem modCluster_out (s : State) (c : Nat) (f : Cluster → Cluster) : (s.modCluster c f).out = s.out := rfl
@[simp] theorem modCluster_freeCtr (s : State) (c : Nat) (f : Cluster → Cluster) : (s.modCluster c f).freeCtr = s.freeCtr := rfl

@[simp] theorem modHart_pending (s : State) (h : Nat) (f : HartSt → HartSt) : (s.modHart h f).pending = s.pending := rfl
@[simp] theorem modHart_regs (s : State) (h : Nat) (f : HartSt → HartSt) : (s.modHart h f).regs = s.regs := rfl
@[simp] theorem modHart_snaps (s : State) (h : Nat) (f : HartSt → HartSt) : (s.modHart h f).snaps = s.snaps := rfl
@[simp] theorem modHart_mem (s : State) (h : Nat) (f : HartSt → HartSt) : (s.modHart h f).mem = s.mem := rfl
@[simp] theorem modHart_poison (s : State) (h : Nat) (f : HartSt → HartSt) : (s.modHart h f).poison = s.poison := rfl
@[simp] theorem modHart_cores (s : State) (h : Nat) (f : HartSt → HartSt) : (s.modHart h f).cores = s.cores := rfl
@[simp] theorem modHart_clusters (s : State) (h : Nat) (f : HartSt → HartSt) : (s.modHart h f).clusters = s.clusters := rfl
@[simp] theorem modHart_tallies (s : State) (h : Nat) (f : HartSt → HartSt) : (s.modHart h f).tallies = s.tallies := rfl
@[simp] theorem modHart_waits (s : State) (h : Nat) (f : HartSt → HartSt) : (s.modHart h f).waits = s.waits := rfl
@[simp] theorem modHart_watches (s : State) (h : Nat) (f : HartSt → HartSt) : (s.modHart h f).watches = s.watches := rfl
@[simp] theorem modHart_dram (s : State) (h : Nat) (f : HartSt → HartSt) : (s.modHart h f).dram = s.dram := rfl
@[simp] theorem modHart_tiering (s : State) (h : Nat) (f : HartSt → HartSt) : (s.modHart h f).tiering = s.tiering := rfl
@[simp] theorem modHart_plan (s : State) (h : Nat) (f : HartSt → HartSt) : (s.modHart h f).plan = s.plan := rfl
@[simp] theorem modHart_fenced (s : State) (h : Nat) (f : HartSt → HartSt) : (s.modHart h f).fenced = s.fenced := rfl
@[simp] theorem modHart_pst (s : State) (h : Nat) (f : HartSt → HartSt) : (s.modHart h f).pst = s.pst := rfl
@[simp] theorem modHart_issue (s : State) (h : Nat) (f : HartSt → HartSt) : (s.modHart h f).issue = s.issue := rfl
@[simp] theorem modHart_alm (s : State) (h : Nat) (f : HartSt → HartSt) : (s.modHart h f).alm = s.alm := rfl
@[simp] theorem modHart_power (s : State) (h : Nat) (f : HartSt → HartSt) : (s.modHart h f).power = s.power := rfl
@[simp] theorem modHart_aclk (s : State) (h : Nat) (f : HartSt → HartSt) : (s.modHart h f).aclk = s.aclk := rfl
@[simp] theorem modHart_links (s : State) (h : Nat) (f : HartSt → HartSt) : (s.modHart h f).links = s.links := rfl
@[simp] theorem modHart_eth (s : State) (h : Nat) (f : HartSt → HartSt) : (s.modHart h f).eth = s.eth := rfl
@[simp] theorem modHart_pci (s : State) (h : Nat) (f : HartSt → HartSt) : (s.modHart h f).pci = s.pci := rfl
@[simp] theorem modHart_mgt (s : State) (h : Nat) (f : HartSt → HartSt) : (s.modHart h f).mgt = s.mgt := rfl
@[simp] theorem modHart_bcn (s : State) (h : Nat) (f : HartSt → HartSt) : (s.modHart h f).bcn = s.bcn := rfl
@[simp] theorem modHart_dev (s : State) (h : Nat) (f : HartSt → HartSt) : (s.modHart h f).dev = s.dev := rfl
@[simp] theorem modHart_router (s : State) (h : Nat) (f : HartSt → HartSt) : (s.modHart h f).router = s.router := rfl
@[simp] theorem modHart_thresher (s : State) (h : Nat) (f : HartSt → HartSt) : (s.modHart h f).thresher = s.thresher := rfl
@[simp] theorem modHart_insts (s : State) (h : Nat) (f : HartSt → HartSt) : (s.modHart h f).insts = s.insts := rfl
@[simp] theorem modHart_serving (s : State) (h : Nat) (f : HartSt → HartSt) : (s.modHart h f).serving = s.serving := rfl
@[simp] theorem modHart_service (s : State) (h : Nat) (f : HartSt → HartSt) : (s.modHart h f).service = s.service := rfl
@[simp] theorem modHart_nwt (s : State) (h : Nat) (f : HartSt → HartSt) : (s.modHart h f).nwt = s.nwt := rfl
@[simp] theorem modHart_out (s : State) (h : Nat) (f : HartSt → HartSt) : (s.modHart h f).out = s.out := rfl
@[simp] theorem modHart_freeCtr (s : State) (h : Nat) (f : HartSt → HartSt) : (s.modHart h f).freeCtr = s.freeCtr := rfl

@[simp] theorem modChan_pending (s : State) (n : Nat) (f : Channel → Channel) : (s.modChan n f).pending = s.pending := rfl
@[simp] theorem modChan_regs (s : State) (n : Nat) (f : Channel → Channel) : (s.modChan n f).regs = s.regs := rfl
@[simp] theorem modChan_snaps (s : State) (n : Nat) (f : Channel → Channel) : (s.modChan n f).snaps = s.snaps := rfl
@[simp] theorem modChan_mem (s : State) (n : Nat) (f : Channel → Channel) : (s.modChan n f).mem = s.mem := rfl
@[simp] theorem modChan_poison (s : State) (n : Nat) (f : Channel → Channel) : (s.modChan n f).poison = s.poison := rfl
@[simp] theorem modChan_cores (s : State) (n : Nat) (f : Channel → Channel) : (s.modChan n f).cores = s.cores := rfl
@[simp] theorem modChan_clusters (s : State) (n : Nat) (f : Channel → Channel) : (s.modChan n f).clusters = s.clusters := rfl
@[simp] theorem modChan_harts (s : State) (n : Nat) (f : Channel → Channel) : (s.modChan n f).harts = s.harts := rfl
@[simp] theorem modChan_tallies (s : State) (n : Nat) (f : Channel → Channel) : (s.modChan n f).tallies = s.tallies := rfl
@[simp] theorem modChan_waits (s : State) (n : Nat) (f : Channel → Channel) : (s.modChan n f).waits = s.waits := rfl
@[simp] theorem modChan_watches (s : State) (n : Nat) (f : Channel → Channel) : (s.modChan n f).watches = s.watches := rfl
@[simp] theorem modChan_tiering (s : State) (n : Nat) (f : Channel → Channel) : (s.modChan n f).tiering = s.tiering := rfl
@[simp] theorem modChan_plan (s : State) (n : Nat) (f : Channel → Channel) : (s.modChan n f).plan = s.plan := rfl
@[simp] theorem modChan_fenced (s : State) (n : Nat) (f : Channel → Channel) : (s.modChan n f).fenced = s.fenced := rfl
@[simp] theorem modChan_pst (s : State) (n : Nat) (f : Channel → Channel) : (s.modChan n f).pst = s.pst := rfl
@[simp] theorem modChan_issue (s : State) (n : Nat) (f : Channel → Channel) : (s.modChan n f).issue = s.issue := rfl
@[simp] theorem modChan_alm (s : State) (n : Nat) (f : Channel → Channel) : (s.modChan n f).alm = s.alm := rfl
@[simp] theorem modChan_power (s : State) (n : Nat) (f : Channel → Channel) : (s.modChan n f).power = s.power := rfl
@[simp] theorem modChan_aclk (s : State) (n : Nat) (f : Channel → Channel) : (s.modChan n f).aclk = s.aclk := rfl
@[simp] theorem modChan_links (s : State) (n : Nat) (f : Channel → Channel) : (s.modChan n f).links = s.links := rfl
@[simp] theorem modChan_eth (s : State) (n : Nat) (f : Channel → Channel) : (s.modChan n f).eth = s.eth := rfl
@[simp] theorem modChan_pci (s : State) (n : Nat) (f : Channel → Channel) : (s.modChan n f).pci = s.pci := rfl
@[simp] theorem modChan_mgt (s : State) (n : Nat) (f : Channel → Channel) : (s.modChan n f).mgt = s.mgt := rfl
@[simp] theorem modChan_bcn (s : State) (n : Nat) (f : Channel → Channel) : (s.modChan n f).bcn = s.bcn := rfl
@[simp] theorem modChan_dev (s : State) (n : Nat) (f : Channel → Channel) : (s.modChan n f).dev = s.dev := rfl
@[simp] theorem modChan_router (s : State) (n : Nat) (f : Channel → Channel) : (s.modChan n f).router = s.router := rfl
@[simp] theorem modChan_thresher (s : State) (n : Nat) (f : Channel → Channel) : (s.modChan n f).thresher = s.thresher := rfl
@[simp] theorem modChan_insts (s : State) (n : Nat) (f : Channel → Channel) : (s.modChan n f).insts = s.insts := rfl
@[simp] theorem modChan_serving (s : State) (n : Nat) (f : Channel → Channel) : (s.modChan n f).serving = s.serving := rfl
@[simp] theorem modChan_service (s : State) (n : Nat) (f : Channel → Channel) : (s.modChan n f).service = s.service := rfl
@[simp] theorem modChan_nwt (s : State) (n : Nat) (f : Channel → Channel) : (s.modChan n f).nwt = s.nwt := rfl
@[simp] theorem modChan_out (s : State) (n : Nat) (f : Channel → Channel) : (s.modChan n f).out = s.out := rfl
@[simp] theorem modChan_freeCtr (s : State) (n : Nat) (f : Channel → Channel) : (s.modChan n f).freeCtr = s.freeCtr := rfl

@[simp] theorem modStack_pending (s : State) (n : Nat) (f : Stack → Stack) : (s.modStack n f).pending = s.pending := rfl
@[simp] theorem modStack_regs (s : State) (n : Nat) (f : Stack → Stack) : (s.modStack n f).regs = s.regs := rfl
@[simp] theorem modStack_snaps (s : State) (n : Nat) (f : Stack → Stack) : (s.modStack n f).snaps = s.snaps := rfl
@[simp] theorem modStack_mem (s : State) (n : Nat) (f : Stack → Stack) : (s.modStack n f).mem = s.mem := rfl
@[simp] theorem modStack_poison (s : State) (n : Nat) (f : Stack → Stack) : (s.modStack n f).poison = s.poison := rfl
@[simp] theorem modStack_cores (s : State) (n : Nat) (f : Stack → Stack) : (s.modStack n f).cores = s.cores := rfl
@[simp] theorem modStack_clusters (s : State) (n : Nat) (f : Stack → Stack) : (s.modStack n f).clusters = s.clusters := rfl
@[simp] theorem modStack_harts (s : State) (n : Nat) (f : Stack → Stack) : (s.modStack n f).harts = s.harts := rfl
@[simp] theorem modStack_tallies (s : State) (n : Nat) (f : Stack → Stack) : (s.modStack n f).tallies = s.tallies := rfl
@[simp] theorem modStack_waits (s : State) (n : Nat) (f : Stack → Stack) : (s.modStack n f).waits = s.waits := rfl
@[simp] theorem modStack_watches (s : State) (n : Nat) (f : Stack → Stack) : (s.modStack n f).watches = s.watches := rfl
@[simp] theorem modStack_tiering (s : State) (n : Nat) (f : Stack → Stack) : (s.modStack n f).tiering = s.tiering := rfl
@[simp] theorem modStack_plan (s : State) (n : Nat) (f : Stack → Stack) : (s.modStack n f).plan = s.plan := rfl
@[simp] theorem modStack_fenced (s : State) (n : Nat) (f : Stack → Stack) : (s.modStack n f).fenced = s.fenced := rfl
@[simp] theorem modStack_pst (s : State) (n : Nat) (f : Stack → Stack) : (s.modStack n f).pst = s.pst := rfl
@[simp] theorem modStack_issue (s : State) (n : Nat) (f : Stack → Stack) : (s.modStack n f).issue = s.issue := rfl
@[simp] theorem modStack_alm (s : State) (n : Nat) (f : Stack → Stack) : (s.modStack n f).alm = s.alm := rfl
@[simp] theorem modStack_power (s : State) (n : Nat) (f : Stack → Stack) : (s.modStack n f).power = s.power := rfl
@[simp] theorem modStack_aclk (s : State) (n : Nat) (f : Stack → Stack) : (s.modStack n f).aclk = s.aclk := rfl
@[simp] theorem modStack_links (s : State) (n : Nat) (f : Stack → Stack) : (s.modStack n f).links = s.links := rfl
@[simp] theorem modStack_eth (s : State) (n : Nat) (f : Stack → Stack) : (s.modStack n f).eth = s.eth := rfl
@[simp] theorem modStack_pci (s : State) (n : Nat) (f : Stack → Stack) : (s.modStack n f).pci = s.pci := rfl
@[simp] theorem modStack_mgt (s : State) (n : Nat) (f : Stack → Stack) : (s.modStack n f).mgt = s.mgt := rfl
@[simp] theorem modStack_bcn (s : State) (n : Nat) (f : Stack → Stack) : (s.modStack n f).bcn = s.bcn := rfl
@[simp] theorem modStack_dev (s : State) (n : Nat) (f : Stack → Stack) : (s.modStack n f).dev = s.dev := rfl
@[simp] theorem modStack_router (s : State) (n : Nat) (f : Stack → Stack) : (s.modStack n f).router = s.router := rfl
@[simp] theorem modStack_thresher (s : State) (n : Nat) (f : Stack → Stack) : (s.modStack n f).thresher = s.thresher := rfl
@[simp] theorem modStack_insts (s : State) (n : Nat) (f : Stack → Stack) : (s.modStack n f).insts = s.insts := rfl
@[simp] theorem modStack_serving (s : State) (n : Nat) (f : Stack → Stack) : (s.modStack n f).serving = s.serving := rfl
@[simp] theorem modStack_service (s : State) (n : Nat) (f : Stack → Stack) : (s.modStack n f).service = s.service := rfl
@[simp] theorem modStack_nwt (s : State) (n : Nat) (f : Stack → Stack) : (s.modStack n f).nwt = s.nwt := rfl
@[simp] theorem modStack_out (s : State) (n : Nat) (f : Stack → Stack) : (s.modStack n f).out = s.out := rfl
@[simp] theorem modStack_freeCtr (s : State) (n : Nat) (f : Stack → Stack) : (s.modStack n f).freeCtr = s.freeCtr := rfl

@[simp] theorem modAclk_pending (s : State) (c : Nat) (f : Aclk → Aclk) : (s.modAclk c f).pending = s.pending := rfl
@[simp] theorem modAclk_regs (s : State) (c : Nat) (f : Aclk → Aclk) : (s.modAclk c f).regs = s.regs := rfl
@[simp] theorem modAclk_snaps (s : State) (c : Nat) (f : Aclk → Aclk) : (s.modAclk c f).snaps = s.snaps := rfl
@[simp] theorem modAclk_mem (s : State) (c : Nat) (f : Aclk → Aclk) : (s.modAclk c f).mem = s.mem := rfl
@[simp] theorem modAclk_poison (s : State) (c : Nat) (f : Aclk → Aclk) : (s.modAclk c f).poison = s.poison := rfl
@[simp] theorem modAclk_cores (s : State) (c : Nat) (f : Aclk → Aclk) : (s.modAclk c f).cores = s.cores := rfl
@[simp] theorem modAclk_clusters (s : State) (c : Nat) (f : Aclk → Aclk) : (s.modAclk c f).clusters = s.clusters := rfl
@[simp] theorem modAclk_harts (s : State) (c : Nat) (f : Aclk → Aclk) : (s.modAclk c f).harts = s.harts := rfl
@[simp] theorem modAclk_tallies (s : State) (c : Nat) (f : Aclk → Aclk) : (s.modAclk c f).tallies = s.tallies := rfl
@[simp] theorem modAclk_waits (s : State) (c : Nat) (f : Aclk → Aclk) : (s.modAclk c f).waits = s.waits := rfl
@[simp] theorem modAclk_watches (s : State) (c : Nat) (f : Aclk → Aclk) : (s.modAclk c f).watches = s.watches := rfl
@[simp] theorem modAclk_dram (s : State) (c : Nat) (f : Aclk → Aclk) : (s.modAclk c f).dram = s.dram := rfl
@[simp] theorem modAclk_tiering (s : State) (c : Nat) (f : Aclk → Aclk) : (s.modAclk c f).tiering = s.tiering := rfl
@[simp] theorem modAclk_plan (s : State) (c : Nat) (f : Aclk → Aclk) : (s.modAclk c f).plan = s.plan := rfl
@[simp] theorem modAclk_fenced (s : State) (c : Nat) (f : Aclk → Aclk) : (s.modAclk c f).fenced = s.fenced := rfl
@[simp] theorem modAclk_pst (s : State) (c : Nat) (f : Aclk → Aclk) : (s.modAclk c f).pst = s.pst := rfl
@[simp] theorem modAclk_issue (s : State) (c : Nat) (f : Aclk → Aclk) : (s.modAclk c f).issue = s.issue := rfl
@[simp] theorem modAclk_alm (s : State) (c : Nat) (f : Aclk → Aclk) : (s.modAclk c f).alm = s.alm := rfl
@[simp] theorem modAclk_power (s : State) (c : Nat) (f : Aclk → Aclk) : (s.modAclk c f).power = s.power := rfl
@[simp] theorem modAclk_links (s : State) (c : Nat) (f : Aclk → Aclk) : (s.modAclk c f).links = s.links := rfl
@[simp] theorem modAclk_eth (s : State) (c : Nat) (f : Aclk → Aclk) : (s.modAclk c f).eth = s.eth := rfl
@[simp] theorem modAclk_pci (s : State) (c : Nat) (f : Aclk → Aclk) : (s.modAclk c f).pci = s.pci := rfl
@[simp] theorem modAclk_mgt (s : State) (c : Nat) (f : Aclk → Aclk) : (s.modAclk c f).mgt = s.mgt := rfl
@[simp] theorem modAclk_bcn (s : State) (c : Nat) (f : Aclk → Aclk) : (s.modAclk c f).bcn = s.bcn := rfl
@[simp] theorem modAclk_dev (s : State) (c : Nat) (f : Aclk → Aclk) : (s.modAclk c f).dev = s.dev := rfl
@[simp] theorem modAclk_router (s : State) (c : Nat) (f : Aclk → Aclk) : (s.modAclk c f).router = s.router := rfl
@[simp] theorem modAclk_thresher (s : State) (c : Nat) (f : Aclk → Aclk) : (s.modAclk c f).thresher = s.thresher := rfl
@[simp] theorem modAclk_insts (s : State) (c : Nat) (f : Aclk → Aclk) : (s.modAclk c f).insts = s.insts := rfl
@[simp] theorem modAclk_serving (s : State) (c : Nat) (f : Aclk → Aclk) : (s.modAclk c f).serving = s.serving := rfl
@[simp] theorem modAclk_service (s : State) (c : Nat) (f : Aclk → Aclk) : (s.modAclk c f).service = s.service := rfl
@[simp] theorem modAclk_nwt (s : State) (c : Nat) (f : Aclk → Aclk) : (s.modAclk c f).nwt = s.nwt := rfl
@[simp] theorem modAclk_out (s : State) (c : Nat) (f : Aclk → Aclk) : (s.modAclk c f).out = s.out := rfl
@[simp] theorem modAclk_freeCtr (s : State) (c : Nat) (f : Aclk → Aclk) : (s.modAclk c f).freeCtr = s.freeCtr := rfl

@[simp] theorem modLink_pending (s : State) (g : Nat) (f : Link → Link) : (s.modLink g f).pending = s.pending := rfl
@[simp] theorem modLink_regs (s : State) (g : Nat) (f : Link → Link) : (s.modLink g f).regs = s.regs := rfl
@[simp] theorem modLink_snaps (s : State) (g : Nat) (f : Link → Link) : (s.modLink g f).snaps = s.snaps := rfl
@[simp] theorem modLink_mem (s : State) (g : Nat) (f : Link → Link) : (s.modLink g f).mem = s.mem := rfl
@[simp] theorem modLink_poison (s : State) (g : Nat) (f : Link → Link) : (s.modLink g f).poison = s.poison := rfl
@[simp] theorem modLink_cores (s : State) (g : Nat) (f : Link → Link) : (s.modLink g f).cores = s.cores := rfl
@[simp] theorem modLink_clusters (s : State) (g : Nat) (f : Link → Link) : (s.modLink g f).clusters = s.clusters := rfl
@[simp] theorem modLink_harts (s : State) (g : Nat) (f : Link → Link) : (s.modLink g f).harts = s.harts := rfl
@[simp] theorem modLink_tallies (s : State) (g : Nat) (f : Link → Link) : (s.modLink g f).tallies = s.tallies := rfl
@[simp] theorem modLink_waits (s : State) (g : Nat) (f : Link → Link) : (s.modLink g f).waits = s.waits := rfl
@[simp] theorem modLink_watches (s : State) (g : Nat) (f : Link → Link) : (s.modLink g f).watches = s.watches := rfl
@[simp] theorem modLink_dram (s : State) (g : Nat) (f : Link → Link) : (s.modLink g f).dram = s.dram := rfl
@[simp] theorem modLink_tiering (s : State) (g : Nat) (f : Link → Link) : (s.modLink g f).tiering = s.tiering := rfl
@[simp] theorem modLink_plan (s : State) (g : Nat) (f : Link → Link) : (s.modLink g f).plan = s.plan := rfl
@[simp] theorem modLink_fenced (s : State) (g : Nat) (f : Link → Link) : (s.modLink g f).fenced = s.fenced := rfl
@[simp] theorem modLink_pst (s : State) (g : Nat) (f : Link → Link) : (s.modLink g f).pst = s.pst := rfl
@[simp] theorem modLink_issue (s : State) (g : Nat) (f : Link → Link) : (s.modLink g f).issue = s.issue := rfl
@[simp] theorem modLink_alm (s : State) (g : Nat) (f : Link → Link) : (s.modLink g f).alm = s.alm := rfl
@[simp] theorem modLink_power (s : State) (g : Nat) (f : Link → Link) : (s.modLink g f).power = s.power := rfl
@[simp] theorem modLink_aclk (s : State) (g : Nat) (f : Link → Link) : (s.modLink g f).aclk = s.aclk := rfl
@[simp] theorem modLink_eth (s : State) (g : Nat) (f : Link → Link) : (s.modLink g f).eth = s.eth := rfl
@[simp] theorem modLink_pci (s : State) (g : Nat) (f : Link → Link) : (s.modLink g f).pci = s.pci := rfl
@[simp] theorem modLink_mgt (s : State) (g : Nat) (f : Link → Link) : (s.modLink g f).mgt = s.mgt := rfl
@[simp] theorem modLink_bcn (s : State) (g : Nat) (f : Link → Link) : (s.modLink g f).bcn = s.bcn := rfl
@[simp] theorem modLink_dev (s : State) (g : Nat) (f : Link → Link) : (s.modLink g f).dev = s.dev := rfl
@[simp] theorem modLink_router (s : State) (g : Nat) (f : Link → Link) : (s.modLink g f).router = s.router := rfl
@[simp] theorem modLink_thresher (s : State) (g : Nat) (f : Link → Link) : (s.modLink g f).thresher = s.thresher := rfl
@[simp] theorem modLink_insts (s : State) (g : Nat) (f : Link → Link) : (s.modLink g f).insts = s.insts := rfl
@[simp] theorem modLink_serving (s : State) (g : Nat) (f : Link → Link) : (s.modLink g f).serving = s.serving := rfl
@[simp] theorem modLink_service (s : State) (g : Nat) (f : Link → Link) : (s.modLink g f).service = s.service := rfl
@[simp] theorem modLink_nwt (s : State) (g : Nat) (f : Link → Link) : (s.modLink g f).nwt = s.nwt := rfl
@[simp] theorem modLink_out (s : State) (g : Nat) (f : Link → Link) : (s.modLink g f).out = s.out := rfl
@[simp] theorem modLink_freeCtr (s : State) (g : Nat) (f : Link → Link) : (s.modLink g f).freeCtr = s.freeCtr := rfl

@[simp] theorem modEth_pending (s : State) (p : Nat) (f : EthPort → EthPort) : (s.modEth p f).pending = s.pending := rfl
@[simp] theorem modEth_regs (s : State) (p : Nat) (f : EthPort → EthPort) : (s.modEth p f).regs = s.regs := rfl
@[simp] theorem modEth_snaps (s : State) (p : Nat) (f : EthPort → EthPort) : (s.modEth p f).snaps = s.snaps := rfl
@[simp] theorem modEth_mem (s : State) (p : Nat) (f : EthPort → EthPort) : (s.modEth p f).mem = s.mem := rfl
@[simp] theorem modEth_poison (s : State) (p : Nat) (f : EthPort → EthPort) : (s.modEth p f).poison = s.poison := rfl
@[simp] theorem modEth_cores (s : State) (p : Nat) (f : EthPort → EthPort) : (s.modEth p f).cores = s.cores := rfl
@[simp] theorem modEth_clusters (s : State) (p : Nat) (f : EthPort → EthPort) : (s.modEth p f).clusters = s.clusters := rfl
@[simp] theorem modEth_harts (s : State) (p : Nat) (f : EthPort → EthPort) : (s.modEth p f).harts = s.harts := rfl
@[simp] theorem modEth_tallies (s : State) (p : Nat) (f : EthPort → EthPort) : (s.modEth p f).tallies = s.tallies := rfl
@[simp] theorem modEth_waits (s : State) (p : Nat) (f : EthPort → EthPort) : (s.modEth p f).waits = s.waits := rfl
@[simp] theorem modEth_watches (s : State) (p : Nat) (f : EthPort → EthPort) : (s.modEth p f).watches = s.watches := rfl
@[simp] theorem modEth_dram (s : State) (p : Nat) (f : EthPort → EthPort) : (s.modEth p f).dram = s.dram := rfl
@[simp] theorem modEth_tiering (s : State) (p : Nat) (f : EthPort → EthPort) : (s.modEth p f).tiering = s.tiering := rfl
@[simp] theorem modEth_plan (s : State) (p : Nat) (f : EthPort → EthPort) : (s.modEth p f).plan = s.plan := rfl
@[simp] theorem modEth_fenced (s : State) (p : Nat) (f : EthPort → EthPort) : (s.modEth p f).fenced = s.fenced := rfl
@[simp] theorem modEth_pst (s : State) (p : Nat) (f : EthPort → EthPort) : (s.modEth p f).pst = s.pst := rfl
@[simp] theorem modEth_issue (s : State) (p : Nat) (f : EthPort → EthPort) : (s.modEth p f).issue = s.issue := rfl
@[simp] theorem modEth_alm (s : State) (p : Nat) (f : EthPort → EthPort) : (s.modEth p f).alm = s.alm := rfl
@[simp] theorem modEth_power (s : State) (p : Nat) (f : EthPort → EthPort) : (s.modEth p f).power = s.power := rfl
@[simp] theorem modEth_aclk (s : State) (p : Nat) (f : EthPort → EthPort) : (s.modEth p f).aclk = s.aclk := rfl
@[simp] theorem modEth_links (s : State) (p : Nat) (f : EthPort → EthPort) : (s.modEth p f).links = s.links := rfl
@[simp] theorem modEth_pci (s : State) (p : Nat) (f : EthPort → EthPort) : (s.modEth p f).pci = s.pci := rfl
@[simp] theorem modEth_mgt (s : State) (p : Nat) (f : EthPort → EthPort) : (s.modEth p f).mgt = s.mgt := rfl
@[simp] theorem modEth_bcn (s : State) (p : Nat) (f : EthPort → EthPort) : (s.modEth p f).bcn = s.bcn := rfl
@[simp] theorem modEth_dev (s : State) (p : Nat) (f : EthPort → EthPort) : (s.modEth p f).dev = s.dev := rfl
@[simp] theorem modEth_router (s : State) (p : Nat) (f : EthPort → EthPort) : (s.modEth p f).router = s.router := rfl
@[simp] theorem modEth_thresher (s : State) (p : Nat) (f : EthPort → EthPort) : (s.modEth p f).thresher = s.thresher := rfl
@[simp] theorem modEth_insts (s : State) (p : Nat) (f : EthPort → EthPort) : (s.modEth p f).insts = s.insts := rfl
@[simp] theorem modEth_serving (s : State) (p : Nat) (f : EthPort → EthPort) : (s.modEth p f).serving = s.serving := rfl
@[simp] theorem modEth_service (s : State) (p : Nat) (f : EthPort → EthPort) : (s.modEth p f).service = s.service := rfl
@[simp] theorem modEth_nwt (s : State) (p : Nat) (f : EthPort → EthPort) : (s.modEth p f).nwt = s.nwt := rfl
@[simp] theorem modEth_out (s : State) (p : Nat) (f : EthPort → EthPort) : (s.modEth p f).out = s.out := rfl
@[simp] theorem modEth_freeCtr (s : State) (p : Nat) (f : EthPort → EthPort) : (s.modEth p f).freeCtr = s.freeCtr := rfl

@[simp] theorem modPci_pending (s : State) (p : Nat) (f : PciPort → PciPort) : (s.modPci p f).pending = s.pending := rfl
@[simp] theorem modPci_regs (s : State) (p : Nat) (f : PciPort → PciPort) : (s.modPci p f).regs = s.regs := rfl
@[simp] theorem modPci_snaps (s : State) (p : Nat) (f : PciPort → PciPort) : (s.modPci p f).snaps = s.snaps := rfl
@[simp] theorem modPci_mem (s : State) (p : Nat) (f : PciPort → PciPort) : (s.modPci p f).mem = s.mem := rfl
@[simp] theorem modPci_poison (s : State) (p : Nat) (f : PciPort → PciPort) : (s.modPci p f).poison = s.poison := rfl
@[simp] theorem modPci_cores (s : State) (p : Nat) (f : PciPort → PciPort) : (s.modPci p f).cores = s.cores := rfl
@[simp] theorem modPci_clusters (s : State) (p : Nat) (f : PciPort → PciPort) : (s.modPci p f).clusters = s.clusters := rfl
@[simp] theorem modPci_harts (s : State) (p : Nat) (f : PciPort → PciPort) : (s.modPci p f).harts = s.harts := rfl
@[simp] theorem modPci_tallies (s : State) (p : Nat) (f : PciPort → PciPort) : (s.modPci p f).tallies = s.tallies := rfl
@[simp] theorem modPci_waits (s : State) (p : Nat) (f : PciPort → PciPort) : (s.modPci p f).waits = s.waits := rfl
@[simp] theorem modPci_watches (s : State) (p : Nat) (f : PciPort → PciPort) : (s.modPci p f).watches = s.watches := rfl
@[simp] theorem modPci_dram (s : State) (p : Nat) (f : PciPort → PciPort) : (s.modPci p f).dram = s.dram := rfl
@[simp] theorem modPci_tiering (s : State) (p : Nat) (f : PciPort → PciPort) : (s.modPci p f).tiering = s.tiering := rfl
@[simp] theorem modPci_plan (s : State) (p : Nat) (f : PciPort → PciPort) : (s.modPci p f).plan = s.plan := rfl
@[simp] theorem modPci_fenced (s : State) (p : Nat) (f : PciPort → PciPort) : (s.modPci p f).fenced = s.fenced := rfl
@[simp] theorem modPci_pst (s : State) (p : Nat) (f : PciPort → PciPort) : (s.modPci p f).pst = s.pst := rfl
@[simp] theorem modPci_issue (s : State) (p : Nat) (f : PciPort → PciPort) : (s.modPci p f).issue = s.issue := rfl
@[simp] theorem modPci_alm (s : State) (p : Nat) (f : PciPort → PciPort) : (s.modPci p f).alm = s.alm := rfl
@[simp] theorem modPci_power (s : State) (p : Nat) (f : PciPort → PciPort) : (s.modPci p f).power = s.power := rfl
@[simp] theorem modPci_aclk (s : State) (p : Nat) (f : PciPort → PciPort) : (s.modPci p f).aclk = s.aclk := rfl
@[simp] theorem modPci_links (s : State) (p : Nat) (f : PciPort → PciPort) : (s.modPci p f).links = s.links := rfl
@[simp] theorem modPci_eth (s : State) (p : Nat) (f : PciPort → PciPort) : (s.modPci p f).eth = s.eth := rfl
@[simp] theorem modPci_mgt (s : State) (p : Nat) (f : PciPort → PciPort) : (s.modPci p f).mgt = s.mgt := rfl
@[simp] theorem modPci_bcn (s : State) (p : Nat) (f : PciPort → PciPort) : (s.modPci p f).bcn = s.bcn := rfl
@[simp] theorem modPci_dev (s : State) (p : Nat) (f : PciPort → PciPort) : (s.modPci p f).dev = s.dev := rfl
@[simp] theorem modPci_router (s : State) (p : Nat) (f : PciPort → PciPort) : (s.modPci p f).router = s.router := rfl
@[simp] theorem modPci_thresher (s : State) (p : Nat) (f : PciPort → PciPort) : (s.modPci p f).thresher = s.thresher := rfl
@[simp] theorem modPci_insts (s : State) (p : Nat) (f : PciPort → PciPort) : (s.modPci p f).insts = s.insts := rfl
@[simp] theorem modPci_serving (s : State) (p : Nat) (f : PciPort → PciPort) : (s.modPci p f).serving = s.serving := rfl
@[simp] theorem modPci_service (s : State) (p : Nat) (f : PciPort → PciPort) : (s.modPci p f).service = s.service := rfl
@[simp] theorem modPci_nwt (s : State) (p : Nat) (f : PciPort → PciPort) : (s.modPci p f).nwt = s.nwt := rfl
@[simp] theorem modPci_out (s : State) (p : Nat) (f : PciPort → PciPort) : (s.modPci p f).out = s.out := rfl
@[simp] theorem modPci_freeCtr (s : State) (p : Nat) (f : PciPort → PciPort) : (s.modPci p f).freeCtr = s.freeCtr := rfl

@[simp] theorem setReg_pending (s : State) (id : RegId) (i : Nat) (ix : List Nat) (v : Word) : (s.setReg id i ix v).pending = s.pending := rfl
@[simp] theorem setReg_snaps (s : State) (id : RegId) (i : Nat) (ix : List Nat) (v : Word) : (s.setReg id i ix v).snaps = s.snaps := rfl
@[simp] theorem setReg_mem (s : State) (id : RegId) (i : Nat) (ix : List Nat) (v : Word) : (s.setReg id i ix v).mem = s.mem := rfl
@[simp] theorem setReg_poison (s : State) (id : RegId) (i : Nat) (ix : List Nat) (v : Word) : (s.setReg id i ix v).poison = s.poison := rfl
@[simp] theorem setReg_cores (s : State) (id : RegId) (i : Nat) (ix : List Nat) (v : Word) : (s.setReg id i ix v).cores = s.cores := rfl
@[simp] theorem setReg_clusters (s : State) (id : RegId) (i : Nat) (ix : List Nat) (v : Word) : (s.setReg id i ix v).clusters = s.clusters := rfl
@[simp] theorem setReg_harts (s : State) (id : RegId) (i : Nat) (ix : List Nat) (v : Word) : (s.setReg id i ix v).harts = s.harts := rfl
@[simp] theorem setReg_tallies (s : State) (id : RegId) (i : Nat) (ix : List Nat) (v : Word) : (s.setReg id i ix v).tallies = s.tallies := rfl
@[simp] theorem setReg_waits (s : State) (id : RegId) (i : Nat) (ix : List Nat) (v : Word) : (s.setReg id i ix v).waits = s.waits := rfl
@[simp] theorem setReg_watches (s : State) (id : RegId) (i : Nat) (ix : List Nat) (v : Word) : (s.setReg id i ix v).watches = s.watches := rfl
@[simp] theorem setReg_dram (s : State) (id : RegId) (i : Nat) (ix : List Nat) (v : Word) : (s.setReg id i ix v).dram = s.dram := rfl
@[simp] theorem setReg_tiering (s : State) (id : RegId) (i : Nat) (ix : List Nat) (v : Word) : (s.setReg id i ix v).tiering = s.tiering := rfl
@[simp] theorem setReg_plan (s : State) (id : RegId) (i : Nat) (ix : List Nat) (v : Word) : (s.setReg id i ix v).plan = s.plan := rfl
@[simp] theorem setReg_fenced (s : State) (id : RegId) (i : Nat) (ix : List Nat) (v : Word) : (s.setReg id i ix v).fenced = s.fenced := rfl
@[simp] theorem setReg_pst (s : State) (id : RegId) (i : Nat) (ix : List Nat) (v : Word) : (s.setReg id i ix v).pst = s.pst := rfl
@[simp] theorem setReg_issue (s : State) (id : RegId) (i : Nat) (ix : List Nat) (v : Word) : (s.setReg id i ix v).issue = s.issue := rfl
@[simp] theorem setReg_alm (s : State) (id : RegId) (i : Nat) (ix : List Nat) (v : Word) : (s.setReg id i ix v).alm = s.alm := rfl
@[simp] theorem setReg_power (s : State) (id : RegId) (i : Nat) (ix : List Nat) (v : Word) : (s.setReg id i ix v).power = s.power := rfl
@[simp] theorem setReg_aclk (s : State) (id : RegId) (i : Nat) (ix : List Nat) (v : Word) : (s.setReg id i ix v).aclk = s.aclk := rfl
@[simp] theorem setReg_links (s : State) (id : RegId) (i : Nat) (ix : List Nat) (v : Word) : (s.setReg id i ix v).links = s.links := rfl
@[simp] theorem setReg_eth (s : State) (id : RegId) (i : Nat) (ix : List Nat) (v : Word) : (s.setReg id i ix v).eth = s.eth := rfl
@[simp] theorem setReg_pci (s : State) (id : RegId) (i : Nat) (ix : List Nat) (v : Word) : (s.setReg id i ix v).pci = s.pci := rfl
@[simp] theorem setReg_mgt (s : State) (id : RegId) (i : Nat) (ix : List Nat) (v : Word) : (s.setReg id i ix v).mgt = s.mgt := rfl
@[simp] theorem setReg_bcn (s : State) (id : RegId) (i : Nat) (ix : List Nat) (v : Word) : (s.setReg id i ix v).bcn = s.bcn := rfl
@[simp] theorem setReg_dev (s : State) (id : RegId) (i : Nat) (ix : List Nat) (v : Word) : (s.setReg id i ix v).dev = s.dev := rfl
@[simp] theorem setReg_router (s : State) (id : RegId) (i : Nat) (ix : List Nat) (v : Word) : (s.setReg id i ix v).router = s.router := rfl
@[simp] theorem setReg_thresher (s : State) (id : RegId) (i : Nat) (ix : List Nat) (v : Word) : (s.setReg id i ix v).thresher = s.thresher := rfl
@[simp] theorem setReg_insts (s : State) (id : RegId) (i : Nat) (ix : List Nat) (v : Word) : (s.setReg id i ix v).insts = s.insts := rfl
@[simp] theorem setReg_serving (s : State) (id : RegId) (i : Nat) (ix : List Nat) (v : Word) : (s.setReg id i ix v).serving = s.serving := rfl
@[simp] theorem setReg_service (s : State) (id : RegId) (i : Nat) (ix : List Nat) (v : Word) : (s.setReg id i ix v).service = s.service := rfl
@[simp] theorem setReg_nwt (s : State) (id : RegId) (i : Nat) (ix : List Nat) (v : Word) : (s.setReg id i ix v).nwt = s.nwt := rfl
@[simp] theorem setReg_out (s : State) (id : RegId) (i : Nat) (ix : List Nat) (v : Word) : (s.setReg id i ix v).out = s.out := rfl
@[simp] theorem setReg_freeCtr (s : State) (id : RegId) (i : Nat) (ix : List Nat) (v : Word) : (s.setReg id i ix v).freeCtr = s.freeCtr := rfl

@[simp] theorem setFld_pending (s : State) (id : RegId) (i : Nat) (ix : List Nat) (hi lo v : Nat) : (s.setFld id i ix hi lo v).pending = s.pending := rfl
@[simp] theorem setFld_snaps (s : State) (id : RegId) (i : Nat) (ix : List Nat) (hi lo v : Nat) : (s.setFld id i ix hi lo v).snaps = s.snaps := rfl
@[simp] theorem setFld_mem (s : State) (id : RegId) (i : Nat) (ix : List Nat) (hi lo v : Nat) : (s.setFld id i ix hi lo v).mem = s.mem := rfl
@[simp] theorem setFld_poison (s : State) (id : RegId) (i : Nat) (ix : List Nat) (hi lo v : Nat) : (s.setFld id i ix hi lo v).poison = s.poison := rfl
@[simp] theorem setFld_cores (s : State) (id : RegId) (i : Nat) (ix : List Nat) (hi lo v : Nat) : (s.setFld id i ix hi lo v).cores = s.cores := rfl
@[simp] theorem setFld_clusters (s : State) (id : RegId) (i : Nat) (ix : List Nat) (hi lo v : Nat) : (s.setFld id i ix hi lo v).clusters = s.clusters := rfl
@[simp] theorem setFld_harts (s : State) (id : RegId) (i : Nat) (ix : List Nat) (hi lo v : Nat) : (s.setFld id i ix hi lo v).harts = s.harts := rfl
@[simp] theorem setFld_tallies (s : State) (id : RegId) (i : Nat) (ix : List Nat) (hi lo v : Nat) : (s.setFld id i ix hi lo v).tallies = s.tallies := rfl
@[simp] theorem setFld_waits (s : State) (id : RegId) (i : Nat) (ix : List Nat) (hi lo v : Nat) : (s.setFld id i ix hi lo v).waits = s.waits := rfl
@[simp] theorem setFld_watches (s : State) (id : RegId) (i : Nat) (ix : List Nat) (hi lo v : Nat) : (s.setFld id i ix hi lo v).watches = s.watches := rfl
@[simp] theorem setFld_dram (s : State) (id : RegId) (i : Nat) (ix : List Nat) (hi lo v : Nat) : (s.setFld id i ix hi lo v).dram = s.dram := rfl
@[simp] theorem setFld_tiering (s : State) (id : RegId) (i : Nat) (ix : List Nat) (hi lo v : Nat) : (s.setFld id i ix hi lo v).tiering = s.tiering := rfl
@[simp] theorem setFld_plan (s : State) (id : RegId) (i : Nat) (ix : List Nat) (hi lo v : Nat) : (s.setFld id i ix hi lo v).plan = s.plan := rfl
@[simp] theorem setFld_fenced (s : State) (id : RegId) (i : Nat) (ix : List Nat) (hi lo v : Nat) : (s.setFld id i ix hi lo v).fenced = s.fenced := rfl
@[simp] theorem setFld_pst (s : State) (id : RegId) (i : Nat) (ix : List Nat) (hi lo v : Nat) : (s.setFld id i ix hi lo v).pst = s.pst := rfl
@[simp] theorem setFld_issue (s : State) (id : RegId) (i : Nat) (ix : List Nat) (hi lo v : Nat) : (s.setFld id i ix hi lo v).issue = s.issue := rfl
@[simp] theorem setFld_alm (s : State) (id : RegId) (i : Nat) (ix : List Nat) (hi lo v : Nat) : (s.setFld id i ix hi lo v).alm = s.alm := rfl
@[simp] theorem setFld_power (s : State) (id : RegId) (i : Nat) (ix : List Nat) (hi lo v : Nat) : (s.setFld id i ix hi lo v).power = s.power := rfl
@[simp] theorem setFld_aclk (s : State) (id : RegId) (i : Nat) (ix : List Nat) (hi lo v : Nat) : (s.setFld id i ix hi lo v).aclk = s.aclk := rfl
@[simp] theorem setFld_links (s : State) (id : RegId) (i : Nat) (ix : List Nat) (hi lo v : Nat) : (s.setFld id i ix hi lo v).links = s.links := rfl
@[simp] theorem setFld_eth (s : State) (id : RegId) (i : Nat) (ix : List Nat) (hi lo v : Nat) : (s.setFld id i ix hi lo v).eth = s.eth := rfl
@[simp] theorem setFld_pci (s : State) (id : RegId) (i : Nat) (ix : List Nat) (hi lo v : Nat) : (s.setFld id i ix hi lo v).pci = s.pci := rfl
@[simp] theorem setFld_mgt (s : State) (id : RegId) (i : Nat) (ix : List Nat) (hi lo v : Nat) : (s.setFld id i ix hi lo v).mgt = s.mgt := rfl
@[simp] theorem setFld_bcn (s : State) (id : RegId) (i : Nat) (ix : List Nat) (hi lo v : Nat) : (s.setFld id i ix hi lo v).bcn = s.bcn := rfl
@[simp] theorem setFld_dev (s : State) (id : RegId) (i : Nat) (ix : List Nat) (hi lo v : Nat) : (s.setFld id i ix hi lo v).dev = s.dev := rfl
@[simp] theorem setFld_router (s : State) (id : RegId) (i : Nat) (ix : List Nat) (hi lo v : Nat) : (s.setFld id i ix hi lo v).router = s.router := rfl
@[simp] theorem setFld_thresher (s : State) (id : RegId) (i : Nat) (ix : List Nat) (hi lo v : Nat) : (s.setFld id i ix hi lo v).thresher = s.thresher := rfl
@[simp] theorem setFld_insts (s : State) (id : RegId) (i : Nat) (ix : List Nat) (hi lo v : Nat) : (s.setFld id i ix hi lo v).insts = s.insts := rfl
@[simp] theorem setFld_serving (s : State) (id : RegId) (i : Nat) (ix : List Nat) (hi lo v : Nat) : (s.setFld id i ix hi lo v).serving = s.serving := rfl
@[simp] theorem setFld_service (s : State) (id : RegId) (i : Nat) (ix : List Nat) (hi lo v : Nat) : (s.setFld id i ix hi lo v).service = s.service := rfl
@[simp] theorem setFld_nwt (s : State) (id : RegId) (i : Nat) (ix : List Nat) (hi lo v : Nat) : (s.setFld id i ix hi lo v).nwt = s.nwt := rfl
@[simp] theorem setFld_out (s : State) (id : RegId) (i : Nat) (ix : List Nat) (hi lo v : Nat) : (s.setFld id i ix hi lo v).out = s.out := rfl
@[simp] theorem setFld_freeCtr (s : State) (id : RegId) (i : Nat) (ix : List Nat) (hi lo v : Nat) : (s.setFld id i ix hi lo v).freeCtr = s.freeCtr := rfl

@[simp] theorem orReg_pending (s : State) (id : RegId) (i : Nat) (ix : List Nat) (v : Word) : (s.orReg id i ix v).pending = s.pending := rfl
@[simp] theorem orReg_snaps (s : State) (id : RegId) (i : Nat) (ix : List Nat) (v : Word) : (s.orReg id i ix v).snaps = s.snaps := rfl
@[simp] theorem orReg_mem (s : State) (id : RegId) (i : Nat) (ix : List Nat) (v : Word) : (s.orReg id i ix v).mem = s.mem := rfl
@[simp] theorem orReg_poison (s : State) (id : RegId) (i : Nat) (ix : List Nat) (v : Word) : (s.orReg id i ix v).poison = s.poison := rfl
@[simp] theorem orReg_cores (s : State) (id : RegId) (i : Nat) (ix : List Nat) (v : Word) : (s.orReg id i ix v).cores = s.cores := rfl
@[simp] theorem orReg_clusters (s : State) (id : RegId) (i : Nat) (ix : List Nat) (v : Word) : (s.orReg id i ix v).clusters = s.clusters := rfl
@[simp] theorem orReg_harts (s : State) (id : RegId) (i : Nat) (ix : List Nat) (v : Word) : (s.orReg id i ix v).harts = s.harts := rfl
@[simp] theorem orReg_tallies (s : State) (id : RegId) (i : Nat) (ix : List Nat) (v : Word) : (s.orReg id i ix v).tallies = s.tallies := rfl
@[simp] theorem orReg_waits (s : State) (id : RegId) (i : Nat) (ix : List Nat) (v : Word) : (s.orReg id i ix v).waits = s.waits := rfl
@[simp] theorem orReg_watches (s : State) (id : RegId) (i : Nat) (ix : List Nat) (v : Word) : (s.orReg id i ix v).watches = s.watches := rfl
@[simp] theorem orReg_dram (s : State) (id : RegId) (i : Nat) (ix : List Nat) (v : Word) : (s.orReg id i ix v).dram = s.dram := rfl
@[simp] theorem orReg_tiering (s : State) (id : RegId) (i : Nat) (ix : List Nat) (v : Word) : (s.orReg id i ix v).tiering = s.tiering := rfl
@[simp] theorem orReg_plan (s : State) (id : RegId) (i : Nat) (ix : List Nat) (v : Word) : (s.orReg id i ix v).plan = s.plan := rfl
@[simp] theorem orReg_fenced (s : State) (id : RegId) (i : Nat) (ix : List Nat) (v : Word) : (s.orReg id i ix v).fenced = s.fenced := rfl
@[simp] theorem orReg_pst (s : State) (id : RegId) (i : Nat) (ix : List Nat) (v : Word) : (s.orReg id i ix v).pst = s.pst := rfl
@[simp] theorem orReg_issue (s : State) (id : RegId) (i : Nat) (ix : List Nat) (v : Word) : (s.orReg id i ix v).issue = s.issue := rfl
@[simp] theorem orReg_alm (s : State) (id : RegId) (i : Nat) (ix : List Nat) (v : Word) : (s.orReg id i ix v).alm = s.alm := rfl
@[simp] theorem orReg_power (s : State) (id : RegId) (i : Nat) (ix : List Nat) (v : Word) : (s.orReg id i ix v).power = s.power := rfl
@[simp] theorem orReg_aclk (s : State) (id : RegId) (i : Nat) (ix : List Nat) (v : Word) : (s.orReg id i ix v).aclk = s.aclk := rfl
@[simp] theorem orReg_links (s : State) (id : RegId) (i : Nat) (ix : List Nat) (v : Word) : (s.orReg id i ix v).links = s.links := rfl
@[simp] theorem orReg_eth (s : State) (id : RegId) (i : Nat) (ix : List Nat) (v : Word) : (s.orReg id i ix v).eth = s.eth := rfl
@[simp] theorem orReg_pci (s : State) (id : RegId) (i : Nat) (ix : List Nat) (v : Word) : (s.orReg id i ix v).pci = s.pci := rfl
@[simp] theorem orReg_mgt (s : State) (id : RegId) (i : Nat) (ix : List Nat) (v : Word) : (s.orReg id i ix v).mgt = s.mgt := rfl
@[simp] theorem orReg_bcn (s : State) (id : RegId) (i : Nat) (ix : List Nat) (v : Word) : (s.orReg id i ix v).bcn = s.bcn := rfl
@[simp] theorem orReg_dev (s : State) (id : RegId) (i : Nat) (ix : List Nat) (v : Word) : (s.orReg id i ix v).dev = s.dev := rfl
@[simp] theorem orReg_router (s : State) (id : RegId) (i : Nat) (ix : List Nat) (v : Word) : (s.orReg id i ix v).router = s.router := rfl
@[simp] theorem orReg_thresher (s : State) (id : RegId) (i : Nat) (ix : List Nat) (v : Word) : (s.orReg id i ix v).thresher = s.thresher := rfl
@[simp] theorem orReg_insts (s : State) (id : RegId) (i : Nat) (ix : List Nat) (v : Word) : (s.orReg id i ix v).insts = s.insts := rfl
@[simp] theorem orReg_serving (s : State) (id : RegId) (i : Nat) (ix : List Nat) (v : Word) : (s.orReg id i ix v).serving = s.serving := rfl
@[simp] theorem orReg_service (s : State) (id : RegId) (i : Nat) (ix : List Nat) (v : Word) : (s.orReg id i ix v).service = s.service := rfl
@[simp] theorem orReg_nwt (s : State) (id : RegId) (i : Nat) (ix : List Nat) (v : Word) : (s.orReg id i ix v).nwt = s.nwt := rfl
@[simp] theorem orReg_out (s : State) (id : RegId) (i : Nat) (ix : List Nat) (v : Word) : (s.orReg id i ix v).out = s.out := rfl
@[simp] theorem orReg_freeCtr (s : State) (id : RegId) (i : Nat) (ix : List Nat) (v : Word) : (s.orReg id i ix v).freeCtr = s.freeCtr := rfl

@[simp] theorem incReg_pending (s : State) (id : RegId) (i : Nat) (ix : List Nat) (n : Nat) : (s.incReg id i ix n).pending = s.pending := rfl
@[simp] theorem incReg_snaps (s : State) (id : RegId) (i : Nat) (ix : List Nat) (n : Nat) : (s.incReg id i ix n).snaps = s.snaps := rfl
@[simp] theorem incReg_mem (s : State) (id : RegId) (i : Nat) (ix : List Nat) (n : Nat) : (s.incReg id i ix n).mem = s.mem := rfl
@[simp] theorem incReg_poison (s : State) (id : RegId) (i : Nat) (ix : List Nat) (n : Nat) : (s.incReg id i ix n).poison = s.poison := rfl
@[simp] theorem incReg_cores (s : State) (id : RegId) (i : Nat) (ix : List Nat) (n : Nat) : (s.incReg id i ix n).cores = s.cores := rfl
@[simp] theorem incReg_clusters (s : State) (id : RegId) (i : Nat) (ix : List Nat) (n : Nat) : (s.incReg id i ix n).clusters = s.clusters := rfl
@[simp] theorem incReg_harts (s : State) (id : RegId) (i : Nat) (ix : List Nat) (n : Nat) : (s.incReg id i ix n).harts = s.harts := rfl
@[simp] theorem incReg_tallies (s : State) (id : RegId) (i : Nat) (ix : List Nat) (n : Nat) : (s.incReg id i ix n).tallies = s.tallies := rfl
@[simp] theorem incReg_waits (s : State) (id : RegId) (i : Nat) (ix : List Nat) (n : Nat) : (s.incReg id i ix n).waits = s.waits := rfl
@[simp] theorem incReg_watches (s : State) (id : RegId) (i : Nat) (ix : List Nat) (n : Nat) : (s.incReg id i ix n).watches = s.watches := rfl
@[simp] theorem incReg_dram (s : State) (id : RegId) (i : Nat) (ix : List Nat) (n : Nat) : (s.incReg id i ix n).dram = s.dram := rfl
@[simp] theorem incReg_tiering (s : State) (id : RegId) (i : Nat) (ix : List Nat) (n : Nat) : (s.incReg id i ix n).tiering = s.tiering := rfl
@[simp] theorem incReg_plan (s : State) (id : RegId) (i : Nat) (ix : List Nat) (n : Nat) : (s.incReg id i ix n).plan = s.plan := rfl
@[simp] theorem incReg_fenced (s : State) (id : RegId) (i : Nat) (ix : List Nat) (n : Nat) : (s.incReg id i ix n).fenced = s.fenced := rfl
@[simp] theorem incReg_pst (s : State) (id : RegId) (i : Nat) (ix : List Nat) (n : Nat) : (s.incReg id i ix n).pst = s.pst := rfl
@[simp] theorem incReg_issue (s : State) (id : RegId) (i : Nat) (ix : List Nat) (n : Nat) : (s.incReg id i ix n).issue = s.issue := rfl
@[simp] theorem incReg_alm (s : State) (id : RegId) (i : Nat) (ix : List Nat) (n : Nat) : (s.incReg id i ix n).alm = s.alm := rfl
@[simp] theorem incReg_power (s : State) (id : RegId) (i : Nat) (ix : List Nat) (n : Nat) : (s.incReg id i ix n).power = s.power := rfl
@[simp] theorem incReg_aclk (s : State) (id : RegId) (i : Nat) (ix : List Nat) (n : Nat) : (s.incReg id i ix n).aclk = s.aclk := rfl
@[simp] theorem incReg_links (s : State) (id : RegId) (i : Nat) (ix : List Nat) (n : Nat) : (s.incReg id i ix n).links = s.links := rfl
@[simp] theorem incReg_eth (s : State) (id : RegId) (i : Nat) (ix : List Nat) (n : Nat) : (s.incReg id i ix n).eth = s.eth := rfl
@[simp] theorem incReg_pci (s : State) (id : RegId) (i : Nat) (ix : List Nat) (n : Nat) : (s.incReg id i ix n).pci = s.pci := rfl
@[simp] theorem incReg_mgt (s : State) (id : RegId) (i : Nat) (ix : List Nat) (n : Nat) : (s.incReg id i ix n).mgt = s.mgt := rfl
@[simp] theorem incReg_bcn (s : State) (id : RegId) (i : Nat) (ix : List Nat) (n : Nat) : (s.incReg id i ix n).bcn = s.bcn := rfl
@[simp] theorem incReg_dev (s : State) (id : RegId) (i : Nat) (ix : List Nat) (n : Nat) : (s.incReg id i ix n).dev = s.dev := rfl
@[simp] theorem incReg_router (s : State) (id : RegId) (i : Nat) (ix : List Nat) (n : Nat) : (s.incReg id i ix n).router = s.router := rfl
@[simp] theorem incReg_thresher (s : State) (id : RegId) (i : Nat) (ix : List Nat) (n : Nat) : (s.incReg id i ix n).thresher = s.thresher := rfl
@[simp] theorem incReg_insts (s : State) (id : RegId) (i : Nat) (ix : List Nat) (n : Nat) : (s.incReg id i ix n).insts = s.insts := rfl
@[simp] theorem incReg_serving (s : State) (id : RegId) (i : Nat) (ix : List Nat) (n : Nat) : (s.incReg id i ix n).serving = s.serving := rfl
@[simp] theorem incReg_service (s : State) (id : RegId) (i : Nat) (ix : List Nat) (n : Nat) : (s.incReg id i ix n).service = s.service := rfl
@[simp] theorem incReg_nwt (s : State) (id : RegId) (i : Nat) (ix : List Nat) (n : Nat) : (s.incReg id i ix n).nwt = s.nwt := rfl
@[simp] theorem incReg_out (s : State) (id : RegId) (i : Nat) (ix : List Nat) (n : Nat) : (s.incReg id i ix n).out = s.out := rfl
@[simp] theorem incReg_freeCtr (s : State) (id : RegId) (i : Nat) (ix : List Nat) (n : Nat) : (s.incReg id i ix n).freeCtr = s.freeCtr := rfl

@[simp] theorem inc48_pending (s : State) (lo hi : RegId) (i : Nat) (ix : List Nat) (n : Nat) : (s.inc48 lo hi i ix n).pending = s.pending := rfl
@[simp] theorem inc48_snaps (s : State) (lo hi : RegId) (i : Nat) (ix : List Nat) (n : Nat) : (s.inc48 lo hi i ix n).snaps = s.snaps := rfl
@[simp] theorem inc48_mem (s : State) (lo hi : RegId) (i : Nat) (ix : List Nat) (n : Nat) : (s.inc48 lo hi i ix n).mem = s.mem := rfl
@[simp] theorem inc48_poison (s : State) (lo hi : RegId) (i : Nat) (ix : List Nat) (n : Nat) : (s.inc48 lo hi i ix n).poison = s.poison := rfl
@[simp] theorem inc48_cores (s : State) (lo hi : RegId) (i : Nat) (ix : List Nat) (n : Nat) : (s.inc48 lo hi i ix n).cores = s.cores := rfl
@[simp] theorem inc48_clusters (s : State) (lo hi : RegId) (i : Nat) (ix : List Nat) (n : Nat) : (s.inc48 lo hi i ix n).clusters = s.clusters := rfl
@[simp] theorem inc48_harts (s : State) (lo hi : RegId) (i : Nat) (ix : List Nat) (n : Nat) : (s.inc48 lo hi i ix n).harts = s.harts := rfl
@[simp] theorem inc48_tallies (s : State) (lo hi : RegId) (i : Nat) (ix : List Nat) (n : Nat) : (s.inc48 lo hi i ix n).tallies = s.tallies := rfl
@[simp] theorem inc48_waits (s : State) (lo hi : RegId) (i : Nat) (ix : List Nat) (n : Nat) : (s.inc48 lo hi i ix n).waits = s.waits := rfl
@[simp] theorem inc48_watches (s : State) (lo hi : RegId) (i : Nat) (ix : List Nat) (n : Nat) : (s.inc48 lo hi i ix n).watches = s.watches := rfl
@[simp] theorem inc48_dram (s : State) (lo hi : RegId) (i : Nat) (ix : List Nat) (n : Nat) : (s.inc48 lo hi i ix n).dram = s.dram := rfl
@[simp] theorem inc48_tiering (s : State) (lo hi : RegId) (i : Nat) (ix : List Nat) (n : Nat) : (s.inc48 lo hi i ix n).tiering = s.tiering := rfl
@[simp] theorem inc48_plan (s : State) (lo hi : RegId) (i : Nat) (ix : List Nat) (n : Nat) : (s.inc48 lo hi i ix n).plan = s.plan := rfl
@[simp] theorem inc48_fenced (s : State) (lo hi : RegId) (i : Nat) (ix : List Nat) (n : Nat) : (s.inc48 lo hi i ix n).fenced = s.fenced := rfl
@[simp] theorem inc48_pst (s : State) (lo hi : RegId) (i : Nat) (ix : List Nat) (n : Nat) : (s.inc48 lo hi i ix n).pst = s.pst := rfl
@[simp] theorem inc48_issue (s : State) (lo hi : RegId) (i : Nat) (ix : List Nat) (n : Nat) : (s.inc48 lo hi i ix n).issue = s.issue := rfl
@[simp] theorem inc48_alm (s : State) (lo hi : RegId) (i : Nat) (ix : List Nat) (n : Nat) : (s.inc48 lo hi i ix n).alm = s.alm := rfl
@[simp] theorem inc48_power (s : State) (lo hi : RegId) (i : Nat) (ix : List Nat) (n : Nat) : (s.inc48 lo hi i ix n).power = s.power := rfl
@[simp] theorem inc48_aclk (s : State) (lo hi : RegId) (i : Nat) (ix : List Nat) (n : Nat) : (s.inc48 lo hi i ix n).aclk = s.aclk := rfl
@[simp] theorem inc48_links (s : State) (lo hi : RegId) (i : Nat) (ix : List Nat) (n : Nat) : (s.inc48 lo hi i ix n).links = s.links := rfl
@[simp] theorem inc48_eth (s : State) (lo hi : RegId) (i : Nat) (ix : List Nat) (n : Nat) : (s.inc48 lo hi i ix n).eth = s.eth := rfl
@[simp] theorem inc48_pci (s : State) (lo hi : RegId) (i : Nat) (ix : List Nat) (n : Nat) : (s.inc48 lo hi i ix n).pci = s.pci := rfl
@[simp] theorem inc48_mgt (s : State) (lo hi : RegId) (i : Nat) (ix : List Nat) (n : Nat) : (s.inc48 lo hi i ix n).mgt = s.mgt := rfl
@[simp] theorem inc48_bcn (s : State) (lo hi : RegId) (i : Nat) (ix : List Nat) (n : Nat) : (s.inc48 lo hi i ix n).bcn = s.bcn := rfl
@[simp] theorem inc48_dev (s : State) (lo hi : RegId) (i : Nat) (ix : List Nat) (n : Nat) : (s.inc48 lo hi i ix n).dev = s.dev := rfl
@[simp] theorem inc48_router (s : State) (lo hi : RegId) (i : Nat) (ix : List Nat) (n : Nat) : (s.inc48 lo hi i ix n).router = s.router := rfl
@[simp] theorem inc48_thresher (s : State) (lo hi : RegId) (i : Nat) (ix : List Nat) (n : Nat) : (s.inc48 lo hi i ix n).thresher = s.thresher := rfl
@[simp] theorem inc48_insts (s : State) (lo hi : RegId) (i : Nat) (ix : List Nat) (n : Nat) : (s.inc48 lo hi i ix n).insts = s.insts := rfl
@[simp] theorem inc48_serving (s : State) (lo hi : RegId) (i : Nat) (ix : List Nat) (n : Nat) : (s.inc48 lo hi i ix n).serving = s.serving := rfl
@[simp] theorem inc48_service (s : State) (lo hi : RegId) (i : Nat) (ix : List Nat) (n : Nat) : (s.inc48 lo hi i ix n).service = s.service := rfl
@[simp] theorem inc48_nwt (s : State) (lo hi : RegId) (i : Nat) (ix : List Nat) (n : Nat) : (s.inc48 lo hi i ix n).nwt = s.nwt := rfl
@[simp] theorem inc48_out (s : State) (lo hi : RegId) (i : Nat) (ix : List Nat) (n : Nat) : (s.inc48 lo hi i ix n).out = s.out := rfl
@[simp] theorem inc48_freeCtr (s : State) (lo hi : RegId) (i : Nat) (ix : List Nat) (n : Nat) : (s.inc48 lo hi i ix n).freeCtr = s.freeCtr := rfl

@[simp] theorem store_pending (s : State) (a : Nat) (b : List Byte) : (s.store a b).pending = s.pending := rfl
@[simp] theorem store_regs (s : State) (a : Nat) (b : List Byte) : (s.store a b).regs = s.regs := rfl
@[simp] theorem store_snaps (s : State) (a : Nat) (b : List Byte) : (s.store a b).snaps = s.snaps := rfl
@[simp] theorem store_poison (s : State) (a : Nat) (b : List Byte) : (s.store a b).poison = s.poison := rfl
@[simp] theorem store_cores (s : State) (a : Nat) (b : List Byte) : (s.store a b).cores = s.cores := rfl
@[simp] theorem store_clusters (s : State) (a : Nat) (b : List Byte) : (s.store a b).clusters = s.clusters := rfl
@[simp] theorem store_harts (s : State) (a : Nat) (b : List Byte) : (s.store a b).harts = s.harts := rfl
@[simp] theorem store_tallies (s : State) (a : Nat) (b : List Byte) : (s.store a b).tallies = s.tallies := rfl
@[simp] theorem store_waits (s : State) (a : Nat) (b : List Byte) : (s.store a b).waits = s.waits := rfl
@[simp] theorem store_watches (s : State) (a : Nat) (b : List Byte) : (s.store a b).watches = s.watches := rfl
@[simp] theorem store_dram (s : State) (a : Nat) (b : List Byte) : (s.store a b).dram = s.dram := rfl
@[simp] theorem store_tiering (s : State) (a : Nat) (b : List Byte) : (s.store a b).tiering = s.tiering := rfl
@[simp] theorem store_plan (s : State) (a : Nat) (b : List Byte) : (s.store a b).plan = s.plan := rfl
@[simp] theorem store_fenced (s : State) (a : Nat) (b : List Byte) : (s.store a b).fenced = s.fenced := rfl
@[simp] theorem store_pst (s : State) (a : Nat) (b : List Byte) : (s.store a b).pst = s.pst := rfl
@[simp] theorem store_issue (s : State) (a : Nat) (b : List Byte) : (s.store a b).issue = s.issue := rfl
@[simp] theorem store_alm (s : State) (a : Nat) (b : List Byte) : (s.store a b).alm = s.alm := rfl
@[simp] theorem store_power (s : State) (a : Nat) (b : List Byte) : (s.store a b).power = s.power := rfl
@[simp] theorem store_aclk (s : State) (a : Nat) (b : List Byte) : (s.store a b).aclk = s.aclk := rfl
@[simp] theorem store_links (s : State) (a : Nat) (b : List Byte) : (s.store a b).links = s.links := rfl
@[simp] theorem store_eth (s : State) (a : Nat) (b : List Byte) : (s.store a b).eth = s.eth := rfl
@[simp] theorem store_pci (s : State) (a : Nat) (b : List Byte) : (s.store a b).pci = s.pci := rfl
@[simp] theorem store_mgt (s : State) (a : Nat) (b : List Byte) : (s.store a b).mgt = s.mgt := rfl
@[simp] theorem store_bcn (s : State) (a : Nat) (b : List Byte) : (s.store a b).bcn = s.bcn := rfl
@[simp] theorem store_dev (s : State) (a : Nat) (b : List Byte) : (s.store a b).dev = s.dev := rfl
@[simp] theorem store_router (s : State) (a : Nat) (b : List Byte) : (s.store a b).router = s.router := rfl
@[simp] theorem store_thresher (s : State) (a : Nat) (b : List Byte) : (s.store a b).thresher = s.thresher := rfl
@[simp] theorem store_insts (s : State) (a : Nat) (b : List Byte) : (s.store a b).insts = s.insts := rfl
@[simp] theorem store_serving (s : State) (a : Nat) (b : List Byte) : (s.store a b).serving = s.serving := rfl
@[simp] theorem store_service (s : State) (a : Nat) (b : List Byte) : (s.store a b).service = s.service := rfl
@[simp] theorem store_nwt (s : State) (a : Nat) (b : List Byte) : (s.store a b).nwt = s.nwt := rfl
@[simp] theorem store_out (s : State) (a : Nat) (b : List Byte) : (s.store a b).out = s.out := rfl
@[simp] theorem store_freeCtr (s : State) (a : Nat) (b : List Byte) : (s.store a b).freeCtr = s.freeCtr := rfl

@[simp] theorem setPoison_pending (s : State) (l : Nat) (p : Bool) : (s.setPoison l p).pending = s.pending := rfl
@[simp] theorem setPoison_regs (s : State) (l : Nat) (p : Bool) : (s.setPoison l p).regs = s.regs := rfl
@[simp] theorem setPoison_snaps (s : State) (l : Nat) (p : Bool) : (s.setPoison l p).snaps = s.snaps := rfl
@[simp] theorem setPoison_mem (s : State) (l : Nat) (p : Bool) : (s.setPoison l p).mem = s.mem := rfl
@[simp] theorem setPoison_cores (s : State) (l : Nat) (p : Bool) : (s.setPoison l p).cores = s.cores := rfl
@[simp] theorem setPoison_clusters (s : State) (l : Nat) (p : Bool) : (s.setPoison l p).clusters = s.clusters := rfl
@[simp] theorem setPoison_harts (s : State) (l : Nat) (p : Bool) : (s.setPoison l p).harts = s.harts := rfl
@[simp] theorem setPoison_tallies (s : State) (l : Nat) (p : Bool) : (s.setPoison l p).tallies = s.tallies := rfl
@[simp] theorem setPoison_waits (s : State) (l : Nat) (p : Bool) : (s.setPoison l p).waits = s.waits := rfl
@[simp] theorem setPoison_watches (s : State) (l : Nat) (p : Bool) : (s.setPoison l p).watches = s.watches := rfl
@[simp] theorem setPoison_dram (s : State) (l : Nat) (p : Bool) : (s.setPoison l p).dram = s.dram := rfl
@[simp] theorem setPoison_tiering (s : State) (l : Nat) (p : Bool) : (s.setPoison l p).tiering = s.tiering := rfl
@[simp] theorem setPoison_plan (s : State) (l : Nat) (p : Bool) : (s.setPoison l p).plan = s.plan := rfl
@[simp] theorem setPoison_fenced (s : State) (l : Nat) (p : Bool) : (s.setPoison l p).fenced = s.fenced := rfl
@[simp] theorem setPoison_pst (s : State) (l : Nat) (p : Bool) : (s.setPoison l p).pst = s.pst := rfl
@[simp] theorem setPoison_issue (s : State) (l : Nat) (p : Bool) : (s.setPoison l p).issue = s.issue := rfl
@[simp] theorem setPoison_alm (s : State) (l : Nat) (p : Bool) : (s.setPoison l p).alm = s.alm := rfl
@[simp] theorem setPoison_power (s : State) (l : Nat) (p : Bool) : (s.setPoison l p).power = s.power := rfl
@[simp] theorem setPoison_aclk (s : State) (l : Nat) (p : Bool) : (s.setPoison l p).aclk = s.aclk := rfl
@[simp] theorem setPoison_links (s : State) (l : Nat) (p : Bool) : (s.setPoison l p).links = s.links := rfl
@[simp] theorem setPoison_eth (s : State) (l : Nat) (p : Bool) : (s.setPoison l p).eth = s.eth := rfl
@[simp] theorem setPoison_pci (s : State) (l : Nat) (p : Bool) : (s.setPoison l p).pci = s.pci := rfl
@[simp] theorem setPoison_mgt (s : State) (l : Nat) (p : Bool) : (s.setPoison l p).mgt = s.mgt := rfl
@[simp] theorem setPoison_bcn (s : State) (l : Nat) (p : Bool) : (s.setPoison l p).bcn = s.bcn := rfl
@[simp] theorem setPoison_dev (s : State) (l : Nat) (p : Bool) : (s.setPoison l p).dev = s.dev := rfl
@[simp] theorem setPoison_router (s : State) (l : Nat) (p : Bool) : (s.setPoison l p).router = s.router := rfl
@[simp] theorem setPoison_thresher (s : State) (l : Nat) (p : Bool) : (s.setPoison l p).thresher = s.thresher := rfl
@[simp] theorem setPoison_insts (s : State) (l : Nat) (p : Bool) : (s.setPoison l p).insts = s.insts := rfl
@[simp] theorem setPoison_serving (s : State) (l : Nat) (p : Bool) : (s.setPoison l p).serving = s.serving := rfl
@[simp] theorem setPoison_service (s : State) (l : Nat) (p : Bool) : (s.setPoison l p).service = s.service := rfl
@[simp] theorem setPoison_nwt (s : State) (l : Nat) (p : Bool) : (s.setPoison l p).nwt = s.nwt := rfl
@[simp] theorem setPoison_out (s : State) (l : Nat) (p : Bool) : (s.setPoison l p).out = s.out := rfl
@[simp] theorem setPoison_freeCtr (s : State) (l : Nat) (p : Bool) : (s.setPoison l p).freeCtr = s.freeCtr := rfl

@[simp] theorem markStale_pending (s : State) (a : Nat) : (s.markStale a).pending = s.pending := rfl
@[simp] theorem markStale_regs (s : State) (a : Nat) : (s.markStale a).regs = s.regs := rfl
@[simp] theorem markStale_snaps (s : State) (a : Nat) : (s.markStale a).snaps = s.snaps := rfl
@[simp] theorem markStale_mem (s : State) (a : Nat) : (s.markStale a).mem = s.mem := rfl
@[simp] theorem markStale_poison (s : State) (a : Nat) : (s.markStale a).poison = s.poison := rfl
@[simp] theorem markStale_cores (s : State) (a : Nat) : (s.markStale a).cores = s.cores := rfl
@[simp] theorem markStale_clusters (s : State) (a : Nat) : (s.markStale a).clusters = s.clusters := rfl
@[simp] theorem markStale_harts (s : State) (a : Nat) : (s.markStale a).harts = s.harts := rfl
@[simp] theorem markStale_tallies (s : State) (a : Nat) : (s.markStale a).tallies = s.tallies := rfl
@[simp] theorem markStale_waits (s : State) (a : Nat) : (s.markStale a).waits = s.waits := rfl
@[simp] theorem markStale_watches (s : State) (a : Nat) : (s.markStale a).watches = s.watches := rfl
@[simp] theorem markStale_tiering (s : State) (a : Nat) : (s.markStale a).tiering = s.tiering := rfl
@[simp] theorem markStale_plan (s : State) (a : Nat) : (s.markStale a).plan = s.plan := rfl
@[simp] theorem markStale_fenced (s : State) (a : Nat) : (s.markStale a).fenced = s.fenced := rfl
@[simp] theorem markStale_pst (s : State) (a : Nat) : (s.markStale a).pst = s.pst := rfl
@[simp] theorem markStale_issue (s : State) (a : Nat) : (s.markStale a).issue = s.issue := rfl
@[simp] theorem markStale_alm (s : State) (a : Nat) : (s.markStale a).alm = s.alm := rfl
@[simp] theorem markStale_power (s : State) (a : Nat) : (s.markStale a).power = s.power := rfl
@[simp] theorem markStale_aclk (s : State) (a : Nat) : (s.markStale a).aclk = s.aclk := rfl
@[simp] theorem markStale_links (s : State) (a : Nat) : (s.markStale a).links = s.links := rfl
@[simp] theorem markStale_eth (s : State) (a : Nat) : (s.markStale a).eth = s.eth := rfl
@[simp] theorem markStale_pci (s : State) (a : Nat) : (s.markStale a).pci = s.pci := rfl
@[simp] theorem markStale_mgt (s : State) (a : Nat) : (s.markStale a).mgt = s.mgt := rfl
@[simp] theorem markStale_bcn (s : State) (a : Nat) : (s.markStale a).bcn = s.bcn := rfl
@[simp] theorem markStale_dev (s : State) (a : Nat) : (s.markStale a).dev = s.dev := rfl
@[simp] theorem markStale_router (s : State) (a : Nat) : (s.markStale a).router = s.router := rfl
@[simp] theorem markStale_thresher (s : State) (a : Nat) : (s.markStale a).thresher = s.thresher := rfl
@[simp] theorem markStale_insts (s : State) (a : Nat) : (s.markStale a).insts = s.insts := rfl
@[simp] theorem markStale_serving (s : State) (a : Nat) : (s.markStale a).serving = s.serving := rfl
@[simp] theorem markStale_service (s : State) (a : Nat) : (s.markStale a).service = s.service := rfl
@[simp] theorem markStale_nwt (s : State) (a : Nat) : (s.markStale a).nwt = s.nwt := rfl
@[simp] theorem markStale_out (s : State) (a : Nat) : (s.markStale a).out = s.out := rfl
@[simp] theorem markStale_freeCtr (s : State) (a : Nat) : (s.markStale a).freeCtr = s.freeCtr := rfl

@[simp] theorem setTally_pending (s : State) (t : Nat) (v : Word) : (s.setTally t v).pending = s.pending := rfl
@[simp] theorem setTally_regs (s : State) (t : Nat) (v : Word) : (s.setTally t v).regs = s.regs := rfl
@[simp] theorem setTally_snaps (s : State) (t : Nat) (v : Word) : (s.setTally t v).snaps = s.snaps := rfl
@[simp] theorem setTally_mem (s : State) (t : Nat) (v : Word) : (s.setTally t v).mem = s.mem := rfl
@[simp] theorem setTally_poison (s : State) (t : Nat) (v : Word) : (s.setTally t v).poison = s.poison := rfl
@[simp] theorem setTally_cores (s : State) (t : Nat) (v : Word) : (s.setTally t v).cores = s.cores := rfl
@[simp] theorem setTally_clusters (s : State) (t : Nat) (v : Word) : (s.setTally t v).clusters = s.clusters := rfl
@[simp] theorem setTally_harts (s : State) (t : Nat) (v : Word) : (s.setTally t v).harts = s.harts := rfl
@[simp] theorem setTally_dram (s : State) (t : Nat) (v : Word) : (s.setTally t v).dram = s.dram := rfl
@[simp] theorem setTally_tiering (s : State) (t : Nat) (v : Word) : (s.setTally t v).tiering = s.tiering := rfl
@[simp] theorem setTally_plan (s : State) (t : Nat) (v : Word) : (s.setTally t v).plan = s.plan := rfl
@[simp] theorem setTally_fenced (s : State) (t : Nat) (v : Word) : (s.setTally t v).fenced = s.fenced := rfl
@[simp] theorem setTally_pst (s : State) (t : Nat) (v : Word) : (s.setTally t v).pst = s.pst := rfl
@[simp] theorem setTally_issue (s : State) (t : Nat) (v : Word) : (s.setTally t v).issue = s.issue := rfl
@[simp] theorem setTally_alm (s : State) (t : Nat) (v : Word) : (s.setTally t v).alm = s.alm := rfl
@[simp] theorem setTally_power (s : State) (t : Nat) (v : Word) : (s.setTally t v).power = s.power := rfl
@[simp] theorem setTally_aclk (s : State) (t : Nat) (v : Word) : (s.setTally t v).aclk = s.aclk := rfl
@[simp] theorem setTally_links (s : State) (t : Nat) (v : Word) : (s.setTally t v).links = s.links := rfl
@[simp] theorem setTally_eth (s : State) (t : Nat) (v : Word) : (s.setTally t v).eth = s.eth := rfl
@[simp] theorem setTally_pci (s : State) (t : Nat) (v : Word) : (s.setTally t v).pci = s.pci := rfl
@[simp] theorem setTally_mgt (s : State) (t : Nat) (v : Word) : (s.setTally t v).mgt = s.mgt := rfl
@[simp] theorem setTally_bcn (s : State) (t : Nat) (v : Word) : (s.setTally t v).bcn = s.bcn := rfl
@[simp] theorem setTally_dev (s : State) (t : Nat) (v : Word) : (s.setTally t v).dev = s.dev := rfl
@[simp] theorem setTally_router (s : State) (t : Nat) (v : Word) : (s.setTally t v).router = s.router := rfl
@[simp] theorem setTally_thresher (s : State) (t : Nat) (v : Word) : (s.setTally t v).thresher = s.thresher := rfl
@[simp] theorem setTally_insts (s : State) (t : Nat) (v : Word) : (s.setTally t v).insts = s.insts := rfl
@[simp] theorem setTally_serving (s : State) (t : Nat) (v : Word) : (s.setTally t v).serving = s.serving := rfl
@[simp] theorem setTally_service (s : State) (t : Nat) (v : Word) : (s.setTally t v).service = s.service := rfl
@[simp] theorem setTally_nwt (s : State) (t : Nat) (v : Word) : (s.setTally t v).nwt = s.nwt := rfl
@[simp] theorem setTally_freeCtr (s : State) (t : Nat) (v : Word) : (s.setTally t v).freeCtr = s.freeCtr := rfl

@[simp] theorem addTally_pending (s : State) (t n : Nat) : (s.addTally t n).pending = s.pending := rfl
@[simp] theorem addTally_regs (s : State) (t n : Nat) : (s.addTally t n).regs = s.regs := rfl
@[simp] theorem addTally_snaps (s : State) (t n : Nat) : (s.addTally t n).snaps = s.snaps := rfl
@[simp] theorem addTally_mem (s : State) (t n : Nat) : (s.addTally t n).mem = s.mem := rfl
@[simp] theorem addTally_poison (s : State) (t n : Nat) : (s.addTally t n).poison = s.poison := rfl
@[simp] theorem addTally_cores (s : State) (t n : Nat) : (s.addTally t n).cores = s.cores := rfl
@[simp] theorem addTally_clusters (s : State) (t n : Nat) : (s.addTally t n).clusters = s.clusters := rfl
@[simp] theorem addTally_harts (s : State) (t n : Nat) : (s.addTally t n).harts = s.harts := rfl
@[simp] theorem addTally_dram (s : State) (t n : Nat) : (s.addTally t n).dram = s.dram := rfl
@[simp] theorem addTally_tiering (s : State) (t n : Nat) : (s.addTally t n).tiering = s.tiering := rfl
@[simp] theorem addTally_plan (s : State) (t n : Nat) : (s.addTally t n).plan = s.plan := rfl
@[simp] theorem addTally_fenced (s : State) (t n : Nat) : (s.addTally t n).fenced = s.fenced := rfl
@[simp] theorem addTally_pst (s : State) (t n : Nat) : (s.addTally t n).pst = s.pst := rfl
@[simp] theorem addTally_issue (s : State) (t n : Nat) : (s.addTally t n).issue = s.issue := rfl
@[simp] theorem addTally_alm (s : State) (t n : Nat) : (s.addTally t n).alm = s.alm := rfl
@[simp] theorem addTally_power (s : State) (t n : Nat) : (s.addTally t n).power = s.power := rfl
@[simp] theorem addTally_aclk (s : State) (t n : Nat) : (s.addTally t n).aclk = s.aclk := rfl
@[simp] theorem addTally_links (s : State) (t n : Nat) : (s.addTally t n).links = s.links := rfl
@[simp] theorem addTally_eth (s : State) (t n : Nat) : (s.addTally t n).eth = s.eth := rfl
@[simp] theorem addTally_pci (s : State) (t n : Nat) : (s.addTally t n).pci = s.pci := rfl
@[simp] theorem addTally_mgt (s : State) (t n : Nat) : (s.addTally t n).mgt = s.mgt := rfl
@[simp] theorem addTally_bcn (s : State) (t n : Nat) : (s.addTally t n).bcn = s.bcn := rfl
@[simp] theorem addTally_dev (s : State) (t n : Nat) : (s.addTally t n).dev = s.dev := rfl
@[simp] theorem addTally_router (s : State) (t n : Nat) : (s.addTally t n).router = s.router := rfl
@[simp] theorem addTally_thresher (s : State) (t n : Nat) : (s.addTally t n).thresher = s.thresher := rfl
@[simp] theorem addTally_insts (s : State) (t n : Nat) : (s.addTally t n).insts = s.insts := rfl
@[simp] theorem addTally_serving (s : State) (t n : Nat) : (s.addTally t n).serving = s.serving := rfl
@[simp] theorem addTally_service (s : State) (t n : Nat) : (s.addTally t n).service = s.service := rfl
@[simp] theorem addTally_nwt (s : State) (t n : Nat) : (s.addTally t n).nwt = s.nwt := rfl
@[simp] theorem addTally_freeCtr (s : State) (t n : Nat) : (s.addTally t n).freeCtr = s.freeCtr := rfl

@[simp] theorem modCore_same (s : State) (k : Nat) (f : Core → Core) : (s.modCore k f).core k = f (s.core k) := by
  simp [core, modCore]
theorem modCore_ne (s : State) (k j : Nat) (f : Core → Core) (hj : j ≠ k) : (s.modCore k f).core j = s.core j := by
  simp [core, modCore, SMap.get_set_ne _ _ _ _ _ hj]
@[simp] theorem modCluster_same (s : State) (c : Nat) (f : Cluster → Cluster) : (s.modCluster c f).cluster c = f (s.cluster c) := by
  simp [cluster, modCluster]
theorem modCluster_ne (s : State) (c j : Nat) (f : Cluster → Cluster) (hj : j ≠ c) : (s.modCluster c f).cluster j = s.cluster j := by
  simp [cluster, modCluster, SMap.get_set_ne _ _ _ _ _ hj]
@[simp] theorem modHart_same (s : State) (h : Nat) (f : HartSt → HartSt) : (s.modHart h f).hart h = f (s.hart h) := by
  simp [hart, modHart]
theorem modHart_ne (s : State) (h j : Nat) (f : HartSt → HartSt) (hj : j ≠ h) : (s.modHart h f).hart j = s.hart j := by
  simp [hart, modHart, SMap.get_set_ne _ _ _ _ _ hj]
@[simp] theorem modChan_same (s : State) (n : Nat) (f : Channel → Channel) : (s.modChan n f).chan n = f (s.chan n) := by
  simp [chan, modChan]
theorem modChan_ne (s : State) (n j : Nat) (f : Channel → Channel) (hj : j ≠ n) : (s.modChan n f).chan j = s.chan j := by
  simp [chan, modChan, SMap.get_set_ne _ _ _ _ _ hj]
@[simp] theorem modStack_same (s : State) (n : Nat) (f : Stack → Stack) : (s.modStack n f).stack n = f (s.stack n) := by
  simp [stack, modStack]
theorem modStack_ne (s : State) (n j : Nat) (f : Stack → Stack) (hj : j ≠ n) : (s.modStack n f).stack j = s.stack j := by
  simp [stack, modStack, SMap.get_set_ne _ _ _ _ _ hj]
@[simp] theorem modAclk_same (s : State) (c : Nat) (f : Aclk → Aclk) : (s.modAclk c f).aclkOf c = f (s.aclkOf c) := by
  simp [aclkOf, modAclk]
theorem modAclk_ne (s : State) (c j : Nat) (f : Aclk → Aclk) (hj : j ≠ c) : (s.modAclk c f).aclkOf j = s.aclkOf j := by
  simp [aclkOf, modAclk, SMap.get_set_ne _ _ _ _ _ hj]
@[simp] theorem modLink_same (s : State) (g : Nat) (f : Link → Link) : (s.modLink g f).link g = f (s.link g) := by
  simp [link, modLink]
theorem modLink_ne (s : State) (g j : Nat) (f : Link → Link) (hj : j ≠ g) : (s.modLink g f).link j = s.link j := by
  simp [link, modLink, SMap.get_set_ne _ _ _ _ _ hj]
@[simp] theorem modEth_same (s : State) (p : Nat) (f : EthPort → EthPort) : (s.modEth p f).ethPort p = f (s.ethPort p) := by
  simp [ethPort, modEth]
theorem modEth_ne (s : State) (p j : Nat) (f : EthPort → EthPort) (hj : j ≠ p) : (s.modEth p f).ethPort j = s.ethPort j := by
  simp [ethPort, modEth, SMap.get_set_ne _ _ _ _ _ hj]
@[simp] theorem modPci_same (s : State) (p : Nat) (f : PciPort → PciPort) : (s.modPci p f).pciPort p = f (s.pciPort p) := by
  simp [pciPort, modPci]
theorem modPci_ne (s : State) (p j : Nat) (f : PciPort → PciPort) (hj : j ≠ p) : (s.modPci p f).pciPort j = s.pciPort j := by
  simp [pciPort, modPci, SMap.get_set_ne _ _ _ _ _ hj]

@[simp] theorem modMxe_same (s : State) (k : Nat) (f : Mxe → Mxe) : (s.modMxe k f).mxe k = f (s.mxe k) := by
  simp [mxe, modMxe]
@[simp] theorem modVxe_same (s : State) (k : Nat) (f : Vxe → Vxe) : (s.modVxe k f).vxe k = f (s.vxe k) := by
  simp [vxe, modVxe]
@[simp] theorem modMxe_vxe (s : State) (k j : Nat) (f : Mxe → Mxe) : (s.modMxe k f).vxe j = s.vxe j := by
  by_cases h : j = k
  · subst h; simp [vxe, modMxe]
  · simp [vxe, modMxe, modCore_ne _ _ _ _ h]
@[simp] theorem modVxe_mxe (s : State) (k j : Nat) (f : Vxe → Vxe) : (s.modVxe k f).mxe j = s.mxe j := by
  by_cases h : j = k
  · subst h; simp [mxe, modVxe]
  · simp [mxe, modVxe, modCore_ne _ _ _ _ h]

/-- A register after a write of it. -/
theorem reg_setReg_same (s : State) (id : RegId) (i : Nat) (ix : List Nat) (v : Word) :
    (s.setReg id i ix v).reg id i ix = v := by
  simp [reg, setReg, SMap.find_set_same]

/-- A register at another offset after a write. -/
theorem reg_setReg_ne (s : State) (id jd : RegId) (i j : Nat) (ix jx : List Nat) (v : Word)
    (h : regOff jd j jx ≠ regOff id i ix) : (s.setReg id i ix v).reg jd j jx = s.reg jd j jx := by
  simp [reg, setReg, SMap.find_set_ne _ _ _ _ h]

/-- A tally after it is set, and every other one. -/
theorem tally_setTally_same (s : State) (t : Nat) (v : Word) : (s.setTally t v).tally t = v := by
  simp [tally, setTally]
theorem tally_setTally_ne (s : State) (t u : Nat) (v : Word) (h : u ≠ t) : (s.setTally t v).tally u = s.tally u := by
  simp [tally, setTally, SMap.get_set_ne _ _ _ _ _ h]

/-! ### Sending and recording -/

/-- A send changes nothing but what has been sent. -/
theorem send_frame (s : State) (o : Out) : s.send o = { s with out := (s.send o).out } := by
  unfold send; split <;> rfl

/-- A send of a live module that is not FAILED stands at the head of what it has sent. -/
theorem send_out (s : State) (o : Out) (h : s.dev.mode ≠ .failed) : (s.send o).out = o :: s.out := by
  simp [send, h]

/-- What a send other than a write or a tally operation of another module does. -/
theorem send_out_local (s : State) (o : Out) (h : o.toPeer = false) : (s.send o).out = o :: s.out := by
  simp [send, h]

/-- The MRAM write of a record changes nothing but the Almanac. -/
theorem almWrite_frame (s : State) (r : AlmRec) : s.almWrite r = { s with alm := (s.almWrite r).alm } := by
  unfold almWrite
  split
  · rfl
  · split
    · rfl
    · dsimp only
      split <;> rfl

/-- A record changes nothing but the Almanac and its registers. -/
theorem record_frame (s : State) (c b u : Nat) (d : List Byte) (f : Nat) :
    s.record c b u d f = { s with alm := (s.record c b u d f).alm, regs := (s.record c b u d f).regs } := by
  unfold record
  split
  · rw [almWrite_frame]
  · split
    · rfl
    · dsimp only
      rw [almWrite_frame]

theorem recordAccess_frame (s : State) (a w v : Nat) :
    s.recordAccess a w v = { s with alm := (s.recordAccess a w v).alm, regs := (s.recordAccess a w v).regs } := by
  unfold recordAccess
  dsimp only
  rw [record_frame]

theorem recordReg_frame (s : State) (id : RegId) (i : Nat) (ix : List Nat) (v : Nat) :
    s.recordReg id i ix v =
      { s with alm := (s.recordReg id i ix v).alm, regs := (s.recordReg id i ix v).regs } := by
  unfold recordReg
  rw [recordAccess_frame]

@[simp] theorem send_pending (s : State) (o : Out) : (s.send o).pending = s.pending := by rw [send_frame]
@[simp] theorem send_regs (s : State) (o : Out) : (s.send o).regs = s.regs := by rw [send_frame]
@[simp] theorem send_snaps (s : State) (o : Out) : (s.send o).snaps = s.snaps := by rw [send_frame]
@[simp] theorem send_mem (s : State) (o : Out) : (s.send o).mem = s.mem := by rw [send_frame]
@[simp] theorem send_poison (s : State) (o : Out) : (s.send o).poison = s.poison := by rw [send_frame]
@[simp] theorem send_cores (s : State) (o : Out) : (s.send o).cores = s.cores := by rw [send_frame]
@[simp] theorem send_clusters (s : State) (o : Out) : (s.send o).clusters = s.clusters := by rw [send_frame]
@[simp] theorem send_harts (s : State) (o : Out) : (s.send o).harts = s.harts := by rw [send_frame]
@[simp] theorem send_tallies (s : State) (o : Out) : (s.send o).tallies = s.tallies := by rw [send_frame]
@[simp] theorem send_waits (s : State) (o : Out) : (s.send o).waits = s.waits := by rw [send_frame]
@[simp] theorem send_watches (s : State) (o : Out) : (s.send o).watches = s.watches := by rw [send_frame]
@[simp] theorem send_dram (s : State) (o : Out) : (s.send o).dram = s.dram := by rw [send_frame]
@[simp] theorem send_tiering (s : State) (o : Out) : (s.send o).tiering = s.tiering := by rw [send_frame]
@[simp] theorem send_plan (s : State) (o : Out) : (s.send o).plan = s.plan := by rw [send_frame]
@[simp] theorem send_fenced (s : State) (o : Out) : (s.send o).fenced = s.fenced := by rw [send_frame]
@[simp] theorem send_pst (s : State) (o : Out) : (s.send o).pst = s.pst := by rw [send_frame]
@[simp] theorem send_issue (s : State) (o : Out) : (s.send o).issue = s.issue := by rw [send_frame]
@[simp] theorem send_alm (s : State) (o : Out) : (s.send o).alm = s.alm := by rw [send_frame]
@[simp] theorem send_power (s : State) (o : Out) : (s.send o).power = s.power := by rw [send_frame]
@[simp] theorem send_aclk (s : State) (o : Out) : (s.send o).aclk = s.aclk := by rw [send_frame]
@[simp] theorem send_links (s : State) (o : Out) : (s.send o).links = s.links := by rw [send_frame]
@[simp] theorem send_eth (s : State) (o : Out) : (s.send o).eth = s.eth := by rw [send_frame]
@[simp] theorem send_pci (s : State) (o : Out) : (s.send o).pci = s.pci := by rw [send_frame]
@[simp] theorem send_mgt (s : State) (o : Out) : (s.send o).mgt = s.mgt := by rw [send_frame]
@[simp] theorem send_bcn (s : State) (o : Out) : (s.send o).bcn = s.bcn := by rw [send_frame]
@[simp] theorem send_dev (s : State) (o : Out) : (s.send o).dev = s.dev := by rw [send_frame]
@[simp] theorem send_router (s : State) (o : Out) : (s.send o).router = s.router := by rw [send_frame]
@[simp] theorem send_thresher (s : State) (o : Out) : (s.send o).thresher = s.thresher := by rw [send_frame]
@[simp] theorem send_insts (s : State) (o : Out) : (s.send o).insts = s.insts := by rw [send_frame]
@[simp] theorem send_serving (s : State) (o : Out) : (s.send o).serving = s.serving := by rw [send_frame]
@[simp] theorem send_service (s : State) (o : Out) : (s.send o).service = s.service := by rw [send_frame]
@[simp] theorem send_nwt (s : State) (o : Out) : (s.send o).nwt = s.nwt := by rw [send_frame]
@[simp] theorem send_freeCtr (s : State) (o : Out) : (s.send o).freeCtr = s.freeCtr := by rw [send_frame]

@[simp] theorem almWrite_pending (s : State) (r : AlmRec) : (s.almWrite r).pending = s.pending := by rw [almWrite_frame]
@[simp] theorem almWrite_regs (s : State) (r : AlmRec) : (s.almWrite r).regs = s.regs := by rw [almWrite_frame]
@[simp] theorem almWrite_snaps (s : State) (r : AlmRec) : (s.almWrite r).snaps = s.snaps := by rw [almWrite_frame]
@[simp] theorem almWrite_mem (s : State) (r : AlmRec) : (s.almWrite r).mem = s.mem := by rw [almWrite_frame]
@[simp] theorem almWrite_poison (s : State) (r : AlmRec) : (s.almWrite r).poison = s.poison := by rw [almWrite_frame]
@[simp] theorem almWrite_cores (s : State) (r : AlmRec) : (s.almWrite r).cores = s.cores := by rw [almWrite_frame]
@[simp] theorem almWrite_clusters (s : State) (r : AlmRec) : (s.almWrite r).clusters = s.clusters := by rw [almWrite_frame]
@[simp] theorem almWrite_harts (s : State) (r : AlmRec) : (s.almWrite r).harts = s.harts := by rw [almWrite_frame]
@[simp] theorem almWrite_tallies (s : State) (r : AlmRec) : (s.almWrite r).tallies = s.tallies := by rw [almWrite_frame]
@[simp] theorem almWrite_waits (s : State) (r : AlmRec) : (s.almWrite r).waits = s.waits := by rw [almWrite_frame]
@[simp] theorem almWrite_watches (s : State) (r : AlmRec) : (s.almWrite r).watches = s.watches := by rw [almWrite_frame]
@[simp] theorem almWrite_dram (s : State) (r : AlmRec) : (s.almWrite r).dram = s.dram := by rw [almWrite_frame]
@[simp] theorem almWrite_tiering (s : State) (r : AlmRec) : (s.almWrite r).tiering = s.tiering := by rw [almWrite_frame]
@[simp] theorem almWrite_plan (s : State) (r : AlmRec) : (s.almWrite r).plan = s.plan := by rw [almWrite_frame]
@[simp] theorem almWrite_fenced (s : State) (r : AlmRec) : (s.almWrite r).fenced = s.fenced := by rw [almWrite_frame]
@[simp] theorem almWrite_pst (s : State) (r : AlmRec) : (s.almWrite r).pst = s.pst := by rw [almWrite_frame]
@[simp] theorem almWrite_issue (s : State) (r : AlmRec) : (s.almWrite r).issue = s.issue := by rw [almWrite_frame]
@[simp] theorem almWrite_power (s : State) (r : AlmRec) : (s.almWrite r).power = s.power := by rw [almWrite_frame]
@[simp] theorem almWrite_aclk (s : State) (r : AlmRec) : (s.almWrite r).aclk = s.aclk := by rw [almWrite_frame]
@[simp] theorem almWrite_links (s : State) (r : AlmRec) : (s.almWrite r).links = s.links := by rw [almWrite_frame]
@[simp] theorem almWrite_eth (s : State) (r : AlmRec) : (s.almWrite r).eth = s.eth := by rw [almWrite_frame]
@[simp] theorem almWrite_pci (s : State) (r : AlmRec) : (s.almWrite r).pci = s.pci := by rw [almWrite_frame]
@[simp] theorem almWrite_mgt (s : State) (r : AlmRec) : (s.almWrite r).mgt = s.mgt := by rw [almWrite_frame]
@[simp] theorem almWrite_bcn (s : State) (r : AlmRec) : (s.almWrite r).bcn = s.bcn := by rw [almWrite_frame]
@[simp] theorem almWrite_dev (s : State) (r : AlmRec) : (s.almWrite r).dev = s.dev := by rw [almWrite_frame]
@[simp] theorem almWrite_router (s : State) (r : AlmRec) : (s.almWrite r).router = s.router := by rw [almWrite_frame]
@[simp] theorem almWrite_thresher (s : State) (r : AlmRec) : (s.almWrite r).thresher = s.thresher := by rw [almWrite_frame]
@[simp] theorem almWrite_insts (s : State) (r : AlmRec) : (s.almWrite r).insts = s.insts := by rw [almWrite_frame]
@[simp] theorem almWrite_serving (s : State) (r : AlmRec) : (s.almWrite r).serving = s.serving := by rw [almWrite_frame]
@[simp] theorem almWrite_service (s : State) (r : AlmRec) : (s.almWrite r).service = s.service := by rw [almWrite_frame]
@[simp] theorem almWrite_nwt (s : State) (r : AlmRec) : (s.almWrite r).nwt = s.nwt := by rw [almWrite_frame]
@[simp] theorem almWrite_out (s : State) (r : AlmRec) : (s.almWrite r).out = s.out := by rw [almWrite_frame]
@[simp] theorem almWrite_freeCtr (s : State) (r : AlmRec) : (s.almWrite r).freeCtr = s.freeCtr := by rw [almWrite_frame]

@[simp] theorem record_pending (s : State) (c b u : Nat) (d : List Byte) (f : Nat) : (s.record c b u d f).pending = s.pending := by rw [record_frame]
@[simp] theorem record_snaps (s : State) (c b u : Nat) (d : List Byte) (f : Nat) : (s.record c b u d f).snaps = s.snaps := by rw [record_frame]
@[simp] theorem record_mem (s : State) (c b u : Nat) (d : List Byte) (f : Nat) : (s.record c b u d f).mem = s.mem := by rw [record_frame]
@[simp] theorem record_poison (s : State) (c b u : Nat) (d : List Byte) (f : Nat) : (s.record c b u d f).poison = s.poison := by rw [record_frame]
@[simp] theorem record_cores (s : State) (c b u : Nat) (d : List Byte) (f : Nat) : (s.record c b u d f).cores = s.cores := by rw [record_frame]
@[simp] theorem record_clusters (s : State) (c b u : Nat) (d : List Byte) (f : Nat) : (s.record c b u d f).clusters = s.clusters := by rw [record_frame]
@[simp] theorem record_harts (s : State) (c b u : Nat) (d : List Byte) (f : Nat) : (s.record c b u d f).harts = s.harts := by rw [record_frame]
@[simp] theorem record_tallies (s : State) (c b u : Nat) (d : List Byte) (f : Nat) : (s.record c b u d f).tallies = s.tallies := by rw [record_frame]
@[simp] theorem record_waits (s : State) (c b u : Nat) (d : List Byte) (f : Nat) : (s.record c b u d f).waits = s.waits := by rw [record_frame]
@[simp] theorem record_watches (s : State) (c b u : Nat) (d : List Byte) (f : Nat) : (s.record c b u d f).watches = s.watches := by rw [record_frame]
@[simp] theorem record_dram (s : State) (c b u : Nat) (d : List Byte) (f : Nat) : (s.record c b u d f).dram = s.dram := by rw [record_frame]
@[simp] theorem record_tiering (s : State) (c b u : Nat) (d : List Byte) (f : Nat) : (s.record c b u d f).tiering = s.tiering := by rw [record_frame]
@[simp] theorem record_plan (s : State) (c b u : Nat) (d : List Byte) (f : Nat) : (s.record c b u d f).plan = s.plan := by rw [record_frame]
@[simp] theorem record_fenced (s : State) (c b u : Nat) (d : List Byte) (f : Nat) : (s.record c b u d f).fenced = s.fenced := by rw [record_frame]
@[simp] theorem record_pst (s : State) (c b u : Nat) (d : List Byte) (f : Nat) : (s.record c b u d f).pst = s.pst := by rw [record_frame]
@[simp] theorem record_issue (s : State) (c b u : Nat) (d : List Byte) (f : Nat) : (s.record c b u d f).issue = s.issue := by rw [record_frame]
@[simp] theorem record_power (s : State) (c b u : Nat) (d : List Byte) (f : Nat) : (s.record c b u d f).power = s.power := by rw [record_frame]
@[simp] theorem record_aclk (s : State) (c b u : Nat) (d : List Byte) (f : Nat) : (s.record c b u d f).aclk = s.aclk := by rw [record_frame]
@[simp] theorem record_links (s : State) (c b u : Nat) (d : List Byte) (f : Nat) : (s.record c b u d f).links = s.links := by rw [record_frame]
@[simp] theorem record_eth (s : State) (c b u : Nat) (d : List Byte) (f : Nat) : (s.record c b u d f).eth = s.eth := by rw [record_frame]
@[simp] theorem record_pci (s : State) (c b u : Nat) (d : List Byte) (f : Nat) : (s.record c b u d f).pci = s.pci := by rw [record_frame]
@[simp] theorem record_mgt (s : State) (c b u : Nat) (d : List Byte) (f : Nat) : (s.record c b u d f).mgt = s.mgt := by rw [record_frame]
@[simp] theorem record_bcn (s : State) (c b u : Nat) (d : List Byte) (f : Nat) : (s.record c b u d f).bcn = s.bcn := by rw [record_frame]
@[simp] theorem record_dev (s : State) (c b u : Nat) (d : List Byte) (f : Nat) : (s.record c b u d f).dev = s.dev := by rw [record_frame]
@[simp] theorem record_router (s : State) (c b u : Nat) (d : List Byte) (f : Nat) : (s.record c b u d f).router = s.router := by rw [record_frame]
@[simp] theorem record_thresher (s : State) (c b u : Nat) (d : List Byte) (f : Nat) : (s.record c b u d f).thresher = s.thresher := by rw [record_frame]
@[simp] theorem record_insts (s : State) (c b u : Nat) (d : List Byte) (f : Nat) : (s.record c b u d f).insts = s.insts := by rw [record_frame]
@[simp] theorem record_serving (s : State) (c b u : Nat) (d : List Byte) (f : Nat) : (s.record c b u d f).serving = s.serving := by rw [record_frame]
@[simp] theorem record_service (s : State) (c b u : Nat) (d : List Byte) (f : Nat) : (s.record c b u d f).service = s.service := by rw [record_frame]
@[simp] theorem record_nwt (s : State) (c b u : Nat) (d : List Byte) (f : Nat) : (s.record c b u d f).nwt = s.nwt := by rw [record_frame]
@[simp] theorem record_out (s : State) (c b u : Nat) (d : List Byte) (f : Nat) : (s.record c b u d f).out = s.out := by rw [record_frame]
@[simp] theorem record_freeCtr (s : State) (c b u : Nat) (d : List Byte) (f : Nat) : (s.record c b u d f).freeCtr = s.freeCtr := by rw [record_frame]

@[simp] theorem recordAccess_pending (s : State) (a w v : Nat) : (s.recordAccess a w v).pending = s.pending := by rw [recordAccess_frame]
@[simp] theorem recordAccess_snaps (s : State) (a w v : Nat) : (s.recordAccess a w v).snaps = s.snaps := by rw [recordAccess_frame]
@[simp] theorem recordAccess_mem (s : State) (a w v : Nat) : (s.recordAccess a w v).mem = s.mem := by rw [recordAccess_frame]
@[simp] theorem recordAccess_poison (s : State) (a w v : Nat) : (s.recordAccess a w v).poison = s.poison := by rw [recordAccess_frame]
@[simp] theorem recordAccess_cores (s : State) (a w v : Nat) : (s.recordAccess a w v).cores = s.cores := by rw [recordAccess_frame]
@[simp] theorem recordAccess_clusters (s : State) (a w v : Nat) : (s.recordAccess a w v).clusters = s.clusters := by rw [recordAccess_frame]
@[simp] theorem recordAccess_harts (s : State) (a w v : Nat) : (s.recordAccess a w v).harts = s.harts := by rw [recordAccess_frame]
@[simp] theorem recordAccess_tallies (s : State) (a w v : Nat) : (s.recordAccess a w v).tallies = s.tallies := by rw [recordAccess_frame]
@[simp] theorem recordAccess_waits (s : State) (a w v : Nat) : (s.recordAccess a w v).waits = s.waits := by rw [recordAccess_frame]
@[simp] theorem recordAccess_watches (s : State) (a w v : Nat) : (s.recordAccess a w v).watches = s.watches := by rw [recordAccess_frame]
@[simp] theorem recordAccess_dram (s : State) (a w v : Nat) : (s.recordAccess a w v).dram = s.dram := by rw [recordAccess_frame]
@[simp] theorem recordAccess_tiering (s : State) (a w v : Nat) : (s.recordAccess a w v).tiering = s.tiering := by rw [recordAccess_frame]
@[simp] theorem recordAccess_plan (s : State) (a w v : Nat) : (s.recordAccess a w v).plan = s.plan := by rw [recordAccess_frame]
@[simp] theorem recordAccess_fenced (s : State) (a w v : Nat) : (s.recordAccess a w v).fenced = s.fenced := by rw [recordAccess_frame]
@[simp] theorem recordAccess_pst (s : State) (a w v : Nat) : (s.recordAccess a w v).pst = s.pst := by rw [recordAccess_frame]
@[simp] theorem recordAccess_issue (s : State) (a w v : Nat) : (s.recordAccess a w v).issue = s.issue := by rw [recordAccess_frame]
@[simp] theorem recordAccess_power (s : State) (a w v : Nat) : (s.recordAccess a w v).power = s.power := by rw [recordAccess_frame]
@[simp] theorem recordAccess_aclk (s : State) (a w v : Nat) : (s.recordAccess a w v).aclk = s.aclk := by rw [recordAccess_frame]
@[simp] theorem recordAccess_links (s : State) (a w v : Nat) : (s.recordAccess a w v).links = s.links := by rw [recordAccess_frame]
@[simp] theorem recordAccess_eth (s : State) (a w v : Nat) : (s.recordAccess a w v).eth = s.eth := by rw [recordAccess_frame]
@[simp] theorem recordAccess_pci (s : State) (a w v : Nat) : (s.recordAccess a w v).pci = s.pci := by rw [recordAccess_frame]
@[simp] theorem recordAccess_mgt (s : State) (a w v : Nat) : (s.recordAccess a w v).mgt = s.mgt := by rw [recordAccess_frame]
@[simp] theorem recordAccess_bcn (s : State) (a w v : Nat) : (s.recordAccess a w v).bcn = s.bcn := by rw [recordAccess_frame]
@[simp] theorem recordAccess_dev (s : State) (a w v : Nat) : (s.recordAccess a w v).dev = s.dev := by rw [recordAccess_frame]
@[simp] theorem recordAccess_router (s : State) (a w v : Nat) : (s.recordAccess a w v).router = s.router := by rw [recordAccess_frame]
@[simp] theorem recordAccess_thresher (s : State) (a w v : Nat) : (s.recordAccess a w v).thresher = s.thresher := by rw [recordAccess_frame]
@[simp] theorem recordAccess_insts (s : State) (a w v : Nat) : (s.recordAccess a w v).insts = s.insts := by rw [recordAccess_frame]
@[simp] theorem recordAccess_serving (s : State) (a w v : Nat) : (s.recordAccess a w v).serving = s.serving := by rw [recordAccess_frame]
@[simp] theorem recordAccess_service (s : State) (a w v : Nat) : (s.recordAccess a w v).service = s.service := by rw [recordAccess_frame]
@[simp] theorem recordAccess_nwt (s : State) (a w v : Nat) : (s.recordAccess a w v).nwt = s.nwt := by rw [recordAccess_frame]
@[simp] theorem recordAccess_out (s : State) (a w v : Nat) : (s.recordAccess a w v).out = s.out := by rw [recordAccess_frame]
@[simp] theorem recordAccess_freeCtr (s : State) (a w v : Nat) : (s.recordAccess a w v).freeCtr = s.freeCtr := by rw [recordAccess_frame]

@[simp] theorem recordReg_pending (s : State) (id : RegId) (i : Nat) (ix : List Nat) (v : Nat) : (s.recordReg id i ix v).pending = s.pending := by rw [recordReg_frame]
@[simp] theorem recordReg_snaps (s : State) (id : RegId) (i : Nat) (ix : List Nat) (v : Nat) : (s.recordReg id i ix v).snaps = s.snaps := by rw [recordReg_frame]
@[simp] theorem recordReg_mem (s : State) (id : RegId) (i : Nat) (ix : List Nat) (v : Nat) : (s.recordReg id i ix v).mem = s.mem := by rw [recordReg_frame]
@[simp] theorem recordReg_poison (s : State) (id : RegId) (i : Nat) (ix : List Nat) (v : Nat) : (s.recordReg id i ix v).poison = s.poison := by rw [recordReg_frame]
@[simp] theorem recordReg_cores (s : State) (id : RegId) (i : Nat) (ix : List Nat) (v : Nat) : (s.recordReg id i ix v).cores = s.cores := by rw [recordReg_frame]
@[simp] theorem recordReg_clusters (s : State) (id : RegId) (i : Nat) (ix : List Nat) (v : Nat) : (s.recordReg id i ix v).clusters = s.clusters := by rw [recordReg_frame]
@[simp] theorem recordReg_harts (s : State) (id : RegId) (i : Nat) (ix : List Nat) (v : Nat) : (s.recordReg id i ix v).harts = s.harts := by rw [recordReg_frame]
@[simp] theorem recordReg_tallies (s : State) (id : RegId) (i : Nat) (ix : List Nat) (v : Nat) : (s.recordReg id i ix v).tallies = s.tallies := by rw [recordReg_frame]
@[simp] theorem recordReg_waits (s : State) (id : RegId) (i : Nat) (ix : List Nat) (v : Nat) : (s.recordReg id i ix v).waits = s.waits := by rw [recordReg_frame]
@[simp] theorem recordReg_watches (s : State) (id : RegId) (i : Nat) (ix : List Nat) (v : Nat) : (s.recordReg id i ix v).watches = s.watches := by rw [recordReg_frame]
@[simp] theorem recordReg_dram (s : State) (id : RegId) (i : Nat) (ix : List Nat) (v : Nat) : (s.recordReg id i ix v).dram = s.dram := by rw [recordReg_frame]
@[simp] theorem recordReg_tiering (s : State) (id : RegId) (i : Nat) (ix : List Nat) (v : Nat) : (s.recordReg id i ix v).tiering = s.tiering := by rw [recordReg_frame]
@[simp] theorem recordReg_plan (s : State) (id : RegId) (i : Nat) (ix : List Nat) (v : Nat) : (s.recordReg id i ix v).plan = s.plan := by rw [recordReg_frame]
@[simp] theorem recordReg_fenced (s : State) (id : RegId) (i : Nat) (ix : List Nat) (v : Nat) : (s.recordReg id i ix v).fenced = s.fenced := by rw [recordReg_frame]
@[simp] theorem recordReg_pst (s : State) (id : RegId) (i : Nat) (ix : List Nat) (v : Nat) : (s.recordReg id i ix v).pst = s.pst := by rw [recordReg_frame]
@[simp] theorem recordReg_issue (s : State) (id : RegId) (i : Nat) (ix : List Nat) (v : Nat) : (s.recordReg id i ix v).issue = s.issue := by rw [recordReg_frame]
@[simp] theorem recordReg_power (s : State) (id : RegId) (i : Nat) (ix : List Nat) (v : Nat) : (s.recordReg id i ix v).power = s.power := by rw [recordReg_frame]
@[simp] theorem recordReg_aclk (s : State) (id : RegId) (i : Nat) (ix : List Nat) (v : Nat) : (s.recordReg id i ix v).aclk = s.aclk := by rw [recordReg_frame]
@[simp] theorem recordReg_links (s : State) (id : RegId) (i : Nat) (ix : List Nat) (v : Nat) : (s.recordReg id i ix v).links = s.links := by rw [recordReg_frame]
@[simp] theorem recordReg_eth (s : State) (id : RegId) (i : Nat) (ix : List Nat) (v : Nat) : (s.recordReg id i ix v).eth = s.eth := by rw [recordReg_frame]
@[simp] theorem recordReg_pci (s : State) (id : RegId) (i : Nat) (ix : List Nat) (v : Nat) : (s.recordReg id i ix v).pci = s.pci := by rw [recordReg_frame]
@[simp] theorem recordReg_mgt (s : State) (id : RegId) (i : Nat) (ix : List Nat) (v : Nat) : (s.recordReg id i ix v).mgt = s.mgt := by rw [recordReg_frame]
@[simp] theorem recordReg_bcn (s : State) (id : RegId) (i : Nat) (ix : List Nat) (v : Nat) : (s.recordReg id i ix v).bcn = s.bcn := by rw [recordReg_frame]
@[simp] theorem recordReg_dev (s : State) (id : RegId) (i : Nat) (ix : List Nat) (v : Nat) : (s.recordReg id i ix v).dev = s.dev := by rw [recordReg_frame]
@[simp] theorem recordReg_router (s : State) (id : RegId) (i : Nat) (ix : List Nat) (v : Nat) : (s.recordReg id i ix v).router = s.router := by rw [recordReg_frame]
@[simp] theorem recordReg_thresher (s : State) (id : RegId) (i : Nat) (ix : List Nat) (v : Nat) : (s.recordReg id i ix v).thresher = s.thresher := by rw [recordReg_frame]
@[simp] theorem recordReg_insts (s : State) (id : RegId) (i : Nat) (ix : List Nat) (v : Nat) : (s.recordReg id i ix v).insts = s.insts := by rw [recordReg_frame]
@[simp] theorem recordReg_serving (s : State) (id : RegId) (i : Nat) (ix : List Nat) (v : Nat) : (s.recordReg id i ix v).serving = s.serving := by rw [recordReg_frame]
@[simp] theorem recordReg_service (s : State) (id : RegId) (i : Nat) (ix : List Nat) (v : Nat) : (s.recordReg id i ix v).service = s.service := by rw [recordReg_frame]
@[simp] theorem recordReg_nwt (s : State) (id : RegId) (i : Nat) (ix : List Nat) (v : Nat) : (s.recordReg id i ix v).nwt = s.nwt := by rw [recordReg_frame]
@[simp] theorem recordReg_out (s : State) (id : RegId) (i : Nat) (ix : List Nat) (v : Nat) : (s.recordReg id i ix v).out = s.out := by rw [recordReg_frame]
@[simp] theorem recordReg_freeCtr (s : State) (id : RegId) (i : Nat) (ix : List Nat) (v : Nat) : (s.recordReg id i ix v).freeCtr = s.freeCtr := by rw [recordReg_frame]

/-! ### The local physical map -/

/-- What hides an undefined shared-cache part changes neither with a store nor with a poison mark. -/
@[simp] theorem store_cacheVeil (s : State) (a : Nat) (b : List Byte) : (s.store a b).cacheVeil = s.cacheVeil := rfl
@[simp] theorem setPoison_byte (s : State) (l : Nat) (p : Bool) (x : Nat) : (s.setPoison l p).byte x = s.byte x := rfl

/-- A byte outside a store reads as before. -/
theorem byte_store_outside (s : State) (a : Nat) (b : List Byte) (x : Nat) (h : x < a ∨ a + b.length ≤ x) :
    (s.store a b).byte x = s.byte x := by
  have : (s.store a b).byte x = Memory.get 0 (s.store a b).mem x ^^^ s.cacheVeil x := rfl
  rw [this, store, Memory.get_write_outside]
  · rfl
  · simpa using h

/-- A byte of a store reads as what was stored. -/
theorem byte_store_inside (s : State) (a : Nat) (b : List Byte) (i : Nat) (hm : Memory.wf 0 s.mem = true)
    (h : i < b.length) : (s.store a b).byte (a + i) = b[i] := by
  have : (s.store a b).byte (a + i) = Memory.get 0 (s.store a b).mem (a + i) ^^^ s.cacheVeil (a + i) := rfl
  rw [this, store, Memory.get_write_inside _ _ _ _ _ hm (by simpa using h)]
  simp [BitVec.xor_assoc]

/-- A store keeps the canonical form. -/
theorem wf_store (s : State) (a : Nat) (b : List Byte) (h : Memory.wf 0 s.mem = true) :
    Memory.wf 0 (s.store a b).mem = true := Memory.wf_write _ _ _ _ h

end Sys2Proof.Machine.State
end

