-- ==== Sys2Proof/Laws/Harts.lean ====
section
/-! SUPPORT. What the shared operations of the harts do. -/

namespace Sys2Proof.Machine

/-- A powered command has the effect of its meaning. -/
theorem powered_next (s t : State) (h : s.on = true) : powered s t = .next t := by simp [powered, h]

/-- A ready hart's command has the effect of its meaning. -/
theorem hart_next (s t : State) (h : Nat) (r : HartReady s h) : powered s (onHart s h t) = .next t := by
  simp [powered, onHart, r.1, r.2]

/-- The comparison of R189. -/
theorem atLeast_iff (v h : Word) : State.atLeast v h = true ↔ 0 ≤ (v - h).toInt := by simp [State.atLeast]

theorem atLeast_false (v h : Word) : State.atLeast v h = false ↔ (v - h).toInt < 0 := by simp [State.atLeast]

@[simp] theorem hartGo_pending (s : State) (h rd : Nat) (v : DWord) : (hartGo s h rd v).pending = s.pending := rfl
@[simp] theorem hartGo_regs (s : State) (h rd : Nat) (v : DWord) : (hartGo s h rd v).regs = s.regs := rfl
@[simp] theorem hartGo_snaps (s : State) (h rd : Nat) (v : DWord) : (hartGo s h rd v).snaps = s.snaps := rfl
@[simp] theorem hartGo_mem (s : State) (h rd : Nat) (v : DWord) : (hartGo s h rd v).mem = s.mem := rfl
@[simp] theorem hartGo_poison (s : State) (h rd : Nat) (v : DWord) : (hartGo s h rd v).poison = s.poison := rfl
@[simp] theorem hartGo_cores (s : State) (h rd : Nat) (v : DWord) : (hartGo s h rd v).cores = s.cores := rfl
@[simp] theorem hartGo_clusters (s : State) (h rd : Nat) (v : DWord) : (hartGo s h rd v).clusters = s.clusters := rfl
@[simp] theorem hartGo_tallies (s : State) (h rd : Nat) (v : DWord) : (hartGo s h rd v).tallies = s.tallies := rfl
@[simp] theorem hartGo_waits (s : State) (h rd : Nat) (v : DWord) : (hartGo s h rd v).waits = s.waits := rfl
@[simp] theorem hartGo_watches (s : State) (h rd : Nat) (v : DWord) : (hartGo s h rd v).watches = s.watches := rfl
@[simp] theorem hartGo_dram (s : State) (h rd : Nat) (v : DWord) : (hartGo s h rd v).dram = s.dram := rfl
@[simp] theorem hartGo_tiering (s : State) (h rd : Nat) (v : DWord) : (hartGo s h rd v).tiering = s.tiering := rfl
@[simp] theorem hartGo_plan (s : State) (h rd : Nat) (v : DWord) : (hartGo s h rd v).plan = s.plan := rfl
@[simp] theorem hartGo_fenced (s : State) (h rd : Nat) (v : DWord) : (hartGo s h rd v).fenced = s.fenced := rfl
@[simp] theorem hartGo_pst (s : State) (h rd : Nat) (v : DWord) : (hartGo s h rd v).pst = s.pst := rfl
@[simp] theorem hartGo_issue (s : State) (h rd : Nat) (v : DWord) : (hartGo s h rd v).issue = s.issue := rfl
@[simp] theorem hartGo_alm (s : State) (h rd : Nat) (v : DWord) : (hartGo s h rd v).alm = s.alm := rfl
@[simp] theorem hartGo_power (s : State) (h rd : Nat) (v : DWord) : (hartGo s h rd v).power = s.power := rfl
@[simp] theorem hartGo_aclk (s : State) (h rd : Nat) (v : DWord) : (hartGo s h rd v).aclk = s.aclk := rfl
@[simp] theorem hartGo_links (s : State) (h rd : Nat) (v : DWord) : (hartGo s h rd v).links = s.links := rfl
@[simp] theorem hartGo_eth (s : State) (h rd : Nat) (v : DWord) : (hartGo s h rd v).eth = s.eth := rfl
@[simp] theorem hartGo_pci (s : State) (h rd : Nat) (v : DWord) : (hartGo s h rd v).pci = s.pci := rfl
@[simp] theorem hartGo_mgt (s : State) (h rd : Nat) (v : DWord) : (hartGo s h rd v).mgt = s.mgt := rfl
@[simp] theorem hartGo_bcn (s : State) (h rd : Nat) (v : DWord) : (hartGo s h rd v).bcn = s.bcn := rfl
@[simp] theorem hartGo_dev (s : State) (h rd : Nat) (v : DWord) : (hartGo s h rd v).dev = s.dev := rfl
@[simp] theorem hartGo_router (s : State) (h rd : Nat) (v : DWord) : (hartGo s h rd v).router = s.router := rfl
@[simp] theorem hartGo_thresher (s : State) (h rd : Nat) (v : DWord) : (hartGo s h rd v).thresher = s.thresher := rfl
@[simp] theorem hartGo_insts (s : State) (h rd : Nat) (v : DWord) : (hartGo s h rd v).insts = s.insts := rfl
@[simp] theorem hartGo_serving (s : State) (h rd : Nat) (v : DWord) : (hartGo s h rd v).serving = s.serving := rfl
@[simp] theorem hartGo_service (s : State) (h rd : Nat) (v : DWord) : (hartGo s h rd v).service = s.service := rfl
@[simp] theorem hartGo_nwt (s : State) (h rd : Nat) (v : DWord) : (hartGo s h rd v).nwt = s.nwt := rfl
@[simp] theorem hartGo_out (s : State) (h rd : Nat) (v : DWord) : (hartGo s h rd v).out = s.out := rfl
@[simp] theorem hartGo_freeCtr (s : State) (h rd : Nat) (v : DWord) : (hartGo s h rd v).freeCtr = s.freeCtr := rfl

/-- An instruction that answers in `rd`: the hart has advanced, and its private memories stay. -/
theorem hartGo_advanced (s t : State) (h rd : Nat) (v : DWord) (e : t.harts = s.harts) :
    HartAdvanced s (hartGo t h rd v) h rd v ∧ SamePrivate s (hartGo t h rd v) h := by
  have hh : ∀ j, t.hart j = s.hart j := fun j => by simp [State.hart, e]
  refine ⟨⟨?_, ?_, ?_, ?_, ?_, ?_, ?_, ?_, ?_, ?_, ?_⟩, ?_, ?_, ?_⟩ <;> simp only [hartGo, State.modHart_same, hh]
  · intro n
    unfold HartSt.gpr
    by_cases n0 : n = 0
    · simp [n0]
    · by_cases r0 : rd = 0
      · subst r0; simp [n0]
      · by_cases nr : n = rd
        · subst nr; simp [n0]
        · simp [n0, r0, nr, SMap.get_set_ne _ _ _ _ _ nr]
  · intro j hj
    rw [State.modHart_ne _ _ _ _ hj, hh]

/-- A hart set to hold waits. -/
theorem hold_waits (s t : State) (h : Nat) (why : HartHold) (e : t.harts = s.harts) :
    HartWaits s (t.modHart h fun x => { x with hold := why }) h why := by
  have hh : ∀ j, t.hart j = s.hart j := fun j => by simp [State.hart, e]
  refine ⟨by simp [hh], fun j hj => ?_⟩
  rw [State.modHart_ne _ _ _ _ hj, hh]

/-- States with one memory, one set of marks and one set of clusters have one map. -/
theorem sameMap_of (s t : State) (m : t.mem = s.mem) (c : t.clusters = s.clusters) (p : t.poison = s.poison) :
    SameMap s t := by
  refine ⟨fun a => ?_, p⟩
  have hc : t.cluster = s.cluster := by funext k; unfold State.cluster; rw [c]
  unfold State.byte State.cacheVeil
  rw [m, hc]

end Sys2Proof.Machine
end

