-- ==== Sys2Proof/Tests/Slice0.lean ====
section
/-! SUPPORT. Tests of the model: for every statement a state and operands that meet its hypotheses, the checks of
well-formed commands, and small tests of single steps. -/

namespace Sys2Proof.Tests

set_option Elab.async false

open Sys2Proof.Machine

/-- A command gives a next state with a property. -/
def gives (o : Host.Outcome State Fault Refusal) (p : State → Bool) : Bool :=
  match o with
  | .next t => p t
  | _ => false

/-- `n` bytes with little-endian fields at offsets: (offset, width, value). -/
def bytesOf (n : Nat) (l : List (Nat × Nat × Nat)) : List Byte :=
  (List.range n).map fun i => BitVec.ofNat 8 ((l.map fun f =>
    if f.1 ≤ i ∧ i < f.1 + f.2.1 then f.2.2 / 256 ^ (i - f.1) % 256 else 0).sum)

/-- A memory with pieces written one after the other. -/
def memOf (l : List (Nat × List Byte)) : Memory := l.foldl (fun m p => Memory.write 0 m p.1 p.2) []

/-- The base of core 0's scratchpad. -/
abbrev S0 : Nat := 0x80000000000

/-- A plan for the modules 0 to 7 that names nothing else. -/
def plan0 : Plan :=
  { modules := [0, 1, 2, 3, 4, 5, 6, 7], gen1Peer := false, cores := 1, clusters := 1, contexts := [], jobSeed := 0
    kvBase := 0, kvPages := 1024, kvPageLog := 0, frames := [], tierPages := [], constellations := [], pools := []
    instances := [], thresher := none, rules := [], schedules := [], survival := none, collectives := [], ckptSteps := 0 }

/-- Module 0 in SERVICE, time 100 s after the start. -/
def svc : State :=
  { dev := { mode := .service, started := true, module := some 0, noPosition := false },
    dram := { live := List.range 16, shareMib := 1280 }, pst := { now := 10^11, up := 10^11 },
    alm := { ready := true } }

/-- The same while a plan is loaded. -/
def job : State := { svc with plan := some plan0 }

def map0 : MappingPlan := ⟨1, 1, 1, 0, 0, 0, 0, 0, false, 0⟩

/-- A trained tensor of eight elements and one that is only served. -/
def tens0 : List TensorPlan := [⟨3, 1, [8, 8], none, true, 1, 0, 0⟩, ⟨4, 1, [8, 8], none, false, 1, 0, 0⟩]

/-- An instance with one attention layer and a cycle record: 16,384 records, turns of up to 100 ms. -/
def inst0 : InstancePlan :=
  ⟨0, map0, 0, [bytesOf 32 [(0, 1, 1), (4, 2, 64), (6, 2, 8), (8, 2, 8)]], some (bytesOf 64 [(2, 1, 1), (12, 4, 1), (16, 4, 100)]),
    tens0, 1000, 64, none⟩

def pool0 : PoolPlan :=
  { id := 0, inst := 0, slots := 4, stepTokens := 64, chunk := some 16, queue := 8, admitMs := 50, splitAt := 0 }

def plan1 : Plan := { plan0 with kvPages := 1000, pools := [pool0], instances := [inst0] }

def req0 (id : DWord) : GenReq :=
  ⟨id, 7, 0, 0, false, false, some 42, none, false, false, 0, 0, 0, 3, 5, 0, 0, 0, [1, 2, 3]⟩

/-- Session 7 on connection 1. -/
def svc7 : Service := { conns := [(1, { hello := some (7, .tenant 0), auth := true })], sessions := [(7, ⟨.tenant 0, some 1, 0, [], [], []⟩)] }

def srv : State := { svc with plan := some plan1, service := svc7 }

def slot0 (id : DWord) : Slot :=
  { state := .decode, req := req0 id, split := 1, adapterVer := 0, policy := 0, held := 5, generated := 2, home := 0, pages := 1,
    admitStep := 0, admitTime := 0, placed := 1, samples := true }

def verT (fps : List DWord) : Version := ⟨0, [⟨3, 0, 0, fps, 0⟩, ⟨4, 0, 0, fps, 0⟩]⟩

def thrPlan : ThresherPlan := ⟨1, 1, 1, 5, 3, 70, 71⟩

/-- The gradient of step 8 of the shard's tensor, every element 1.0. -/
def grad8 : Grad := ⟨8, 0, List.replicate 64 0x3F800000, false⟩
/-- An ELEM shard without a sketch residual. -/
def shard1 : Shard :=
  { tensor := 3, rule := 0, mats := 1, rows := 8, cols := 8, settled := 8, grads := [some grad8, none]
    halves := List.replicate 2 { master := List.replicate 64 0x3F800000, mom := List.replicate 64 0, sketch := [⟨List.replicate 8 0, List.replicate 8 0, []⟩] } }
def upd8 : Upd := { step := 8, sentAt := 10^11 - 5 * 10^6, slot := true }

def thr (x : Shard) : State :=
  { svc with
    plan := some { plan1 with thresher := some thrPlan, rules := [bytesOf 36 [(0, 1, 3), (12, 4, 0x3F800000)]], schedules := [[(0, 0x3F800000)]] }
    thresher := { owners := [⟨3, 0, 0, 64⟩], shards := [x] }, tallies := [(70, 4)], regs := SMap.set [] (regOff .thrCtrl) 1 }

/-- A shard under ORTHO whose update runs on the held constellation of cores 0 and 1. -/
def ortho1 : State :=
  let s := thr { shard1 with upd := some upd8 }
  { s with
    plan := s.plan.map fun p => { p with rules := [bytesOf 36 [(0, 1, 1), (2, 1, 5), (12, 4, 0x3F800000)]] }
    thresher := { s.thresher with held := true } }

/-- A journal header of four bytes of image, and its record. -/
def jh : List Byte :=
  let b := leBytes 4 3 ++ leBytes 4 0 ++ leBytes 8 8 ++ leBytes 8 0 ++ leBytes 8 4 ++ leBytes 8 0x5a9c51ccc2f2a3dc ++ leBytes 20 0
  b ++ leBytes 4 (crc32c b)

/-- A message on connection 1 in version 2. -/
def msg (id : DWord) (body : List Byte) : Msg := ⟨1, 2, 0, 0, 0, 0, BitVec.ofNat 16 body.length, id, 0, 0, 0, body⟩

/-- The encoding of the neutral point. -/
def zeroPoint : List Byte := 1 :: List.replicate 56 0

def tconn : Conn := { hello := some (7, .tenant 0), auth := true }

/-- A client of tenant 0 on connection 1, and the operator on the same connection. -/
def cli : State :=
  { srv with service := { svc7 with tenants := [(0, ⟨10, 1000, 5, 1, zeroPoint, false⟩)] } }
def oconn : Conn := { hello := some (7, .operator 0), auth := true }
def opr : State := { svc with service := { conns := [(1, oconn)], sessions := [(7, ⟨.operator 0, some 1, 0, [], [], []⟩)] } }

def genBody (fl : Nat) : List Byte :=
  bytesOf (if fl = 0x14 then 76 else 88) [(1, 1, fl), (12, 4, 3), (16, 4, 5), (28, 4, 42), (64, 4, 1), (68, 4, 2), (72, 4, 12)]
def promptB : List Byte := leBytes 4 1 ++ leBytes 4 2 ++ leBytes 4 3

def rec0 : Sample := ⟨6, 8, 0, 5, 0, 0, 0, 0, 0, 0, 0, 0, 16, 0, 0, false⟩

/-- A session without a connection. -/
def lone (b : Binding) (fenced : List Reply) : Service := { svc7 with sessions := [(7, ⟨b, none, 0, [], fenced, []⟩)] }

/-- An adapter image of one layer and width 64. -/
def adImage : List Byte :=
  bytesOf 256 [(0, 2, 1), (2, 2, 1), (4, 2, 6), (8, 4, 3), (16, 8, 0x287f84a0ae16b380)]
def ad0 : Adapter := ⟨0, 6, 0, [{ num := 2, image := [] }], some 2, none, false, 2⟩
def helloB : List Byte := bytesOf 16 [(0, 1, 1), (8, 8, 7)]

/-- Module 1 of the same sheaf. -/
def mod1 : State := { job with dev := { job.dev with module := some 1, position := 1 } }

/-- Group 7 leads to the sheaf's reserve, which is in SERVICE. -/
def withReserve (s : State) : State :=
  { s with regs := SMap.set [] (regOff .frwRoute 0 [8]) 7
           links := [(7, { state := .up, hbAt := some 5, hbState := 3 })] }

/-- A module without an ID that sits at the reserve's place; position 2 drains. -/
def reserve : State :=
  { svc with dev := { svc.dev with module := none, position := 8, noPosition := false }, links := [(2, { state := .up, hbState := 5, hbModule := 2 })] }

def thr1 : State := thr shard1

def lnk (n : Nat) : Link := { state := .up, trainedAt := 10^11 - 2 * 10^6, hbMiss := n, peer := some 2 }

def copy0 : ShardCopy := ⟨3, 7, 5, {}⟩
def tk (p m : Nat) (b : Bool) : Nwt := { takeovers := [⟨p, m, 10^11 - 40 * 10^9, b⟩], short := [p] }

theorem witness_StepTakesFrontCommand_2 :
  ∃ (s : State), s.pending = [] :=
  ⟨svc, by decide +kernel⟩

theorem witness_StepTakesFrontCommand_3 :
  ∃ (s : State), s.pending = [] ∧ s.on = true ∧ s.pst.slew = 0 :=
  ⟨svc, by decide +kernel⟩

theorem witness_ExecLeavesTheQueue_1 :
  ∃ (c : Instr) (s t : State), exec c s = .next t :=
  ⟨.regulatorTrip, svc, { svc with out := [.ownFailure] }, rfl⟩

theorem witness_EveryCommandCompletes_1 :
  ∃ (c : Instr) (_s : State), ((∀ mv, c ≠ .inputFailure mv)) ∧ ((∀ mv oc ph, c ≠ .regulatorWarning mv oc ph)) :=
  ⟨.stepEnd {}, svc, by intro _; simp, by intro _ _ _; simp⟩

theorem witness_EveryCommandCompletes_2 :
  ∃ (_s : State) (mv : Int) (_oc _phase : Bool), -500 ≤ mv ∧ mv ≤ 50000 :=
  ⟨svc, -500, true, true, by decide +kernel⟩

theorem witness_EveryCommandCompletes_3 :
  ∃ (_s : State) (mv : Int) (_oc _phase : Bool), -500 ≤ mv ∧ mv ≤ 50000 :=
  ⟨svc, 50000, true, true, by decide +kernel⟩

theorem witness_EveryCommandCompletes_4 :
  ∃ (_s : State) (mv : Int) (_oc _phase : Bool), ((mv < -500 ∨ 50000 < mv)) :=
  ⟨svc, 50001, true, true, by decide +kernel⟩

theorem witness_OffIsInert_1 :
  ∃ (c : Instr) (s t : State), s.dev.mode = .off ∧ exec c s = .next t ∧ ((∀ e, c ≠ .moduleEnAssert e)) ∧ c ≠
    .moduleEnDeassert :=
  ⟨.almSpiRead 0 1, { dev := { mode := .off } }, { dev := { mode := .off }, out := [.spi [0x4B]] }, by decide +kernel,
    rfl, by intro _; simp, by simp⟩

theorem witness_StepKeepsCanonicalMemories_1 :
  ∃ (s t : State), s.wf = true ∧ step s = .next t :=
  ⟨{ svc with mem := [(64, 1)], pending := [.regulatorTrip] }, { svc with mem := [(64, 1)], out := [.ownFailure] },
    by decide +kernel, rfl⟩

theorem witness_StepKeepsCoreTables_1 :
  ∃ (s t : State), s.shaped = true ∧ step s = .next t :=
  ⟨{ svc with cores := [(5, {})], pending := [.regulatorTrip] },
    { svc with cores := [(5, {})], out := [.ownFailure] }, by decide +kernel, rfl⟩

theorem witness_FusesNeverFall_1 :
  ∃ (s t : State), step s = .next t :=
  ⟨{ svc with pending := [.regulatorTrip] }, { svc with out := [.ownFailure] }, rfl⟩

/-- Tallies, waits of harts 4 and 5 and 6, and the fenced module 3, in a job. -/
def tal : State :=
  { job with
    tallies := [(5, 7#32), (1029, 0xFFFFFFFF#32)], fenced := [3],
    waits := [⟨16, 5, 9, 10, 5, true, some 9, none⟩, ⟨17, 4, 2, 10, 0x4004004, true, none, some 1⟩,
      ⟨18, 5, 7, 11, 5, false, none, none⟩],
    harts := [(16, { hold := .tally }), (17, { hold := .tally }), (18, { hold := .tally })],
    watches := [⟨2, 6, 4, 8, false⟩] }

/-- Hart 0 with descriptors in its scratchpad's map, core 0 with a halted slot and an idle persistent one. -/
def hst : State :=
  { svc with
    mem := [(0x80000000000, 0x11#8), (0x80000000010, 1#8), (0x81000000003, 0x80#8)],
    regs := SMap.set [] (regOff .cluScCfg 0) 16,
    harts := [(0, { x := [(3, 33)], dmem := [(16, 0x81#8), (17, 0x7F#8)], resv := some (16, 4) }), (1, {})],
    cores := [(0, { mxe := { queue := List.replicate 7 ⟨[1], 0, false, 0⟩, seq := 7 }, str := [{
      active := [some ⟨[1], 0, none, 0, 0, 0, 0, 1, 0, [], false, false, [], some 1, 0, 0, 0, false, false, 0⟩, none, none, none],
      pers := [none, some ⟨List.replicate 64 0, 9, false, none⟩, none, none] }, {}, {}, {}] })] }

theorem witness_TallyAddAndSetComplete_1 :
  ∃ (s : State) (h : Hart) (rs1 rs2 : DWord) (w : Xkvl), HartReady s h ∧
    tlyIllegal w = false ∧ refBad s rs1 (isJoin h rs1 rs2) = false ∧ refRemote s rs1 = false :=
  ⟨tal, 0, 5, 0xFFFFFFFF, ⟨48, 0, 0, 3⟩, by decide +kernel⟩

theorem witness_TallyAddAndSetComplete_2 :
  ∃ (s : State) (h : Hart) (rs1 _rs2 : DWord) (w : Xkvl), HartReady s h ∧
    tlyIllegal w = false ∧ refBad s rs1 false = false ∧ refRemote s rs1 = false :=
  ⟨tal, 0, 5, 3, ⟨0, 0, 0, 0⟩, by decide +kernel⟩

theorem witness_TallyAddAndSetComplete_3 :
  ∃ (s : State) (h : Hart) (rs1 _rs2 : DWord) (w : Xkvl), HartReady s h ∧
    tlyIllegal w = false ∧ refBad s rs1 false = false ∧ refRemote s rs1 = true ∧ s.fenced.contains (bits
    rs1.toNat 25 14) = false ∧ s.dev.mode ≠ .failed :=
  ⟨tal, 0, 0x4004005, 3, ⟨0, 0, 0, 31⟩, by decide +kernel⟩

theorem witness_TallyAddAndSetComplete_4 :
  ∃ (s : State) (h : Hart) (rs1 _rs2 : DWord) (w : Xkvl), HartReady s h ∧
    tlyIllegal w = false ∧ refBad s rs1 false = false ∧ refRemote s rs1 = true ∧ s.fenced.contains (bits
    rs1.toNat 25 14) = false ∧ s.dev.mode ≠ .failed :=
  ⟨tal, 0, 0x4004005, 3, ⟨0, 0, 0, 31⟩, by decide +kernel⟩

theorem witness_TallyWaitsComplete_1 :
  ∃ (s : State) (h : Hart) (rs1 rs2 : DWord) (w : Xkvl), HartReady s h ∧
    tlyIllegal w = false ∧ refBad s rs1 false = false ∧ refRemote s rs1 = false ∧ 0 ≤ (s.tally (rs1.toNat %
    2^14) - rs2.setWidth 32).toInt :=
  ⟨tal, 0, 5, 7, ⟨0, 0, 0, 3⟩, by decide +kernel⟩

theorem witness_TallyWaitsComplete_2 :
  ∃ (s : State) (h : Hart) (rs1 rs2 : DWord) (w : Xkvl), HartReady s h ∧
    tlyIllegal w = false ∧ refBad s rs1 false = false ∧ refRemote s rs1 = false ∧ (s.tally (rs1.toNat % 2^14)
    - rs2.setWidth 32).toInt < 0 :=
  ⟨tal, 0, 5, 8, ⟨0, 0, 0, 3⟩, by decide +kernel⟩

theorem witness_TallyWaitsComplete_3 :
  ∃ (s : State) (h : Hart) (rs1 _rs2 : DWord) (w : Xkvl), HartReady s h ∧
    tlyIllegal w = false ∧ refBad s rs1 false = false ∧ refRemote s rs1 = false :=
  ⟨tal, 0, 5, 8, ⟨0, 0, 0, 3⟩, by decide +kernel⟩

theorem witness_TallyWaitsComplete_4 :
  ∃ (s : State) (h : Hart) (_reported : Option Word) (w : TallyWait), ∃ v, s.on = true ∧ s.waits.find? (fun w => w.hart =
    h.val) = some w ∧ w.remote = none ∧ w.got = some v :=
  ⟨tal, 16, none, ⟨16, 5, 9, 10, 5, true, some 9, none⟩, 9, by decide +kernel⟩

theorem witness_TallyWaitsComplete_5 :
  ∃ (s : State) (h : Hart) (reported : Option Word) (w : TallyWait) (v : Word), s.on = true ∧ s.waits.find? (fun w => w.hart = h.val) =
    some w ∧ w.remote.isSome = true ∧ reported = some v ∧ 0 ≤ (v - w.threshold).toInt :=
  ⟨tal, 17, some 2, ⟨17, 4, 2, 10, 0x4004004, true, none, some 1⟩, 2, by decide +kernel⟩

theorem witness_TallyWaitsComplete_6 :
  ∃ (s : State) (h : Hart) (w : TallyWait), s.on = true ∧ s.waits.find? (fun w => w.hart = h.val) =
    some w ∧ w.watch = false ∧ 0 ≤ (s.tally w.tally - w.threshold).toInt :=
  ⟨tal, 18, ⟨18, 5, 7, 11, 5, false, none, none⟩, by decide +kernel⟩

theorem witness_TallyWaitsComplete_7 :
  ∃ (s : State) (src : ModuleId) (tag : Nat) (w : RemoteWatch), s.on = true ∧ s.dev.mode ≠ .failed ∧
    s.watches.find? (fun w => w.src = src.toNat ∧ w.tag = tag ∧ w.polled) = some w ∧
    0 ≤ (s.tally w.tally - w.threshold).toInt :=
  ⟨{ tal with watches := [⟨2, 6, 4, 8, false⟩, ⟨2, 5, 7, 9, true⟩] }, 2, 9, ⟨2, 5, 7, 9, true⟩, by decide +kernel⟩

theorem witness_RemoteTallyAndClearComplete_1 :
  ∃ (s : State) (src : ModuleId) (_i : BitVec 14) (_v : Word) (_tag : Nat), s.on = true ∧ s.fenced.contains src.toNat
    = false ∧ s.dev.mode ≠ .failed :=
  ⟨tal, 1, 1029, 1, 4, by decide +kernel⟩

theorem witness_RemoteTallyAndClearComplete_2 :
  ∃ (s : State) (src : ModuleId) (_i : BitVec 14) (_v : Word) (_tag : Nat), s.on = true ∧ s.fenced.contains src.toNat
    = false ∧ s.dev.mode ≠ .failed :=
  ⟨tal, 1, 1029, 1, 4, by decide +kernel⟩

theorem witness_RemoteTallyAndClearComplete_3 :
  ∃ (s : State) (src : ModuleId) (_i : BitVec 14) (_v : Word) (_tag : Nat), s.on = true ∧ s.fenced.contains src.toNat
    = false ∧ s.dev.mode ≠ .failed :=
  ⟨tal, 1, 5, 7, 4, by decide +kernel⟩

theorem witness_RemoteTallyAndClearComplete_4 :
  ∃ (s : State) (src : ModuleId) (i : BitVec 14) (v : Word) (_tag : Nat), s.on = true ∧ s.fenced.contains src.toNat =
    false ∧ s.dev.mode ≠ .failed ∧ 0 ≤ (s.tally i.toNat - v).toInt :=
  ⟨tal, 1, 5, 7, 4, by decide +kernel⟩

theorem witness_RemoteTallyAndClearComplete_5 :
  ∃ (s : State) (src : ModuleId) (_i : BitVec 14) (_v : Word) (_tag : Nat), s.on = true ∧ s.fenced.contains src.toNat
    = true :=
  ⟨tal, 3, 5, 7, 4, by decide +kernel⟩

theorem witness_RemoteTallyAndClearComplete_6 :
  ∃ (s : State) (_i : BitVec 14) (_v : Word), s.on = true :=
  ⟨tal, 1029, 1, by decide +kernel⟩

theorem witness_RemoteTallyAndClearComplete_7 :
  ∃ (s : State) (c : ClusterIx), s.on = true ∧ s.jobOwns c = false :=
  ⟨{ tal with plan := none }, 0, by decide +kernel⟩

theorem witness_HartFencesAndIssueComplete_1 :
  ∃ (s : State) (h : Hart) (w : Xkvl), HartReady s h ∧ bits w.f7.toNat 1 0 ≠ 0 ∧ bits w.f7.toNat 4 2 < 5 ∧
    bits w.f7.toNat 6 5 = 0 :=
  ⟨hst, 0, ⟨0x11, 0, 0, 0⟩, by decide +kernel⟩

theorem witness_HartFencesAndIssueComplete_2 :
  ∃ (s : State) (h : Hart), HartReady s h :=
  ⟨hst, 0, by decide +kernel⟩

theorem witness_HartFencesAndIssueComplete_3 :
  ∃ (s : State) (h : Hart) (w : Xkvl) (rs1 : DWord) (b : List Byte), HartReady s h ∧ s.shaped = true ∧ w.f7.toNat = 0 ∧ h.val % 4 =
    0 ∧ rs1.toNat % 32 = 0 ∧ hartBytes s h rs1.toNat 32 = some b ∧ (s.mxe (h / 4)).queue.length < 8 ∧ (s.mxe (h /
    4)).waiters = [] :=
  ⟨hst, 0, ⟨0, 0, 0, 5⟩, BitVec.ofNat 64 (dmemBase + 32), List.replicate 32 0, by decide +kernel⟩

theorem witness_HartFencesAndIssueComplete_4 :
  ∃ (s : State) (h : Hart) (w : Xkvl) (rs1 : DWord) (b : List Byte), HartReady s h ∧ s.shaped = true ∧ w.f7.toNat = 1 ∧ rs1.toNat %
    32 = 0 ∧ hartBytes s h rs1.toNat 32 = some b ∧ (s.vxe (h / 4)).queue.length < 8 ∧ (s.vxe (h / 4)).waiters = [] :=
  ⟨hst, 1, ⟨1, 0, 0, 5⟩, BitVec.ofNat 64 (dmemBase + 32), List.replicate 32 0, by decide +kernel⟩

theorem witness_HartFencesAndIssueComplete_5 :
  ∃ (s : State) (h : Hart) (w : Xkvl) (rs1 : DWord) (b : List Byte) (u : UnitIx), HartReady s h ∧ s.shaped = true
    ∧ w.f7.toNat = 4 + u.val ∧ rs1.toNat % 64 = 0 ∧ hartBytes s h rs1.toNat 64 = some b ∧ (s.str (h / 4) u).queue.length < 16 ∧ (s.str (h / 4)
    u).waiters = [] :=
  ⟨hst, 0, ⟨7, 0, 0, 5⟩, BitVec.ofNat 64 (dmemBase + 64), List.replicate 64 0, 3, by decide +kernel⟩

theorem witness_HartFencesAndIssueComplete_6 :
  ∃ (s : State) (h : Hart) (w : Xkvl) (rs1 : DWord) (u : UnitIx), ∃ i, HartReady s h ∧ w.f7.toNat = u.val ∧ rs1.toNat < 2^23 ∧
    rs1.toNat % 64 = 0 ∧ haltedAt s (h / 4) u rs1.toNat = some i :=
  ⟨hst, 0, ⟨0, 0, 0, 5⟩, 8365056, 0, 0, by decide +kernel⟩

theorem witness_HartFencesAndIssueComplete_7 :
  ∃ (s : State) (h : Hart) (w : Xkvl) (rs1 : DWord) (u : UnitIx), HartReady s h ∧ w.f7.toNat = u.val ∧ ((2^23 ≤ rs1.toNat ∨ rs1.toNat %
    64 ≠ 0 ∨ haltedAt s (h / 4) u rs1.toNat = none)) :=
  ⟨hst, 0, ⟨0, 0, 0, 5⟩, 128, 0, by decide +kernel⟩

theorem witness_HartFencesAndIssueComplete_8 :
  ∃ (s : State) (h : Hart) (w : Xkvl) (rs1 rs2 : DWord) (u : UnitIx) (base : List Byte) (i : Nat) (e : PersSlot),
    HartReady s h ∧ w.f7.toNat = u.val ∧ s.shaped = true ∧ rs2.toNat % 32 = 0 ∧ hartBytes s h rs2.toNat 32 = some base ∧ (s.str (h / 4)
    u).pers.findIdx? (fun e => match e with | some e => decide (e.seq.toNat = rs1.toNat) | none => false) = some i ∧
    (s.str (h / 4) u).pers.getD i none = some e ∧ e.busy = false ∧ NoHeldRearm s (h / 4) u ∧ fieldAt base 16 4 = 1 ∧
    zeroAt base 20 12 = true :=
  ⟨hst, 0, ⟨0, 0, 0, 5⟩, 9, 0x80000000000, 0, [0x11] ++ List.replicate 15 0 ++ [1] ++ List.replicate 15 0, 1, ⟨List.replicate 64
    0, 9, false, none⟩, by decide +kernel⟩

theorem witness_HartLoadsAndStoresComplete_1 :
  ∃ (s : State) (h : Hart) (n : Fin 4) (_signed : Bool) (addr val : DWord) (_rd : Fin 32), ∃ off, HartReady s h ∧
    hartTarget s h addr.toNat (2^n.val) [.read] = .imem off :=
  ⟨hst, 0, 3, false, BitVec.ofNat 64 imemBase, 0, 3, 0, by decide +kernel⟩

theorem witness_HartLoadsAndStoresComplete_2 :
  ∃ (s : State) (h : Hart) (n : Fin 4) (_signed : Bool) (addr val : DWord) (_rd : Fin 32), ∃ off, HartReady s h ∧
    hartTarget s h addr.toNat (2^n.val) [.read] = .dmem off :=
  ⟨hst, 0, 0, true, BitVec.ofNat 64 (dmemBase + 16), 0, 3, 16, by decide +kernel⟩

theorem witness_HartLoadsAndStoresComplete_3 :
  ∃ (s : State) (h : Hart) (n : Fin 4) (_signed : Bool) (addr val : DWord) (_rd : Fin 32), ∃ a, HartReady s h ∧
    hartTarget s h addr.toNat (2^n.val) [.read] = .here a ∧ isRegs a = false ∧ s.rangePoison a (2^n.val) = false :=
  ⟨hst, 0, 1, true, 0x80000000010, 0, 3, 0x80000000010, by decide +kernel⟩

theorem witness_HartLoadsAndStoresComplete_4 :
  ∃ (s : State) (h : Hart) (n : Fin 4) (addr val : DWord) (_rd : Fin 32), ∃ off, HartReady s h ∧ hartTarget s h
    addr.toNat (2^n.val) [.write] = .dmem off :=
  ⟨hst, 0, 3, BitVec.ofNat 64 (dmemBase + 65528), 0x0102030405060708, 3, 65528, by decide +kernel⟩

theorem witness_HartLoadsAndStoresComplete_5 :
  ∃ (s : State) (h : Hart) (n : Fin 4) (addr val : DWord) (_rd : Fin 32), ∃ a, HartReady s h ∧ hartTarget s h addr.toNat
    (2^n.val) [.write] = .here a ∧ isRegs a = false ∧ a % 2^n.val = 0 ∧ (State.isDram a && s.dramShut a) = false ∧ Memory.wf 0
    s.mem = true :=
  ⟨hst, 0, 3, 0x80000000010, 0x0102030405060708, 3, 0x80000000010, by decide +kernel⟩

theorem witness_HartAtomicsComplete_1 :
  ∃ (s : State) (h : Hart) (wide : Bool) (addr _val : DWord) (_rd : Fin 32) (off : Nat), HartReady s h ∧ addr.toNat %
    (if wide then 8 else 4) = 0 ∧ (∀ acc ∈ [[Access.read], [.write]],
    hartTarget s h addr.toNat (if wide then 8 else 4) acc = .dmem off) :=
  ⟨hst, 0, false, BitVec.ofNat 64 (dmemBase + 16), 0, 3, 16, by decide +kernel⟩

theorem witness_HartAtomicsComplete_2 :
  ∃ (s : State) (h : Hart) (wide : Bool) (addr _val : DWord) (_rd : Fin 32) (off : Nat), HartReady s h ∧ addr.toNat %
    (if wide then 8 else 4) = 0 ∧ (∀ acc ∈ [[Access.read], [.write]],
    hartTarget s h addr.toNat (if wide then 8 else 4) acc = .dmem off) ∧ (s.hart h).resv = some
    (off, if wide then 8 else 4) :=
  ⟨hst, 0, false, BitVec.ofNat 64 (dmemBase + 16), 5, 3, 16, by decide +kernel⟩

theorem witness_HartAtomicsComplete_3 :
  ∃ (s : State) (h : Hart) (wide : Bool) (addr _val : DWord) (_rd : Fin 32) (off : Nat), HartReady s h ∧ addr.toNat %
    (if wide then 8 else 4) = 0 ∧ (∀ acc ∈ [[Access.read], [.write]],
    hartTarget s h addr.toNat (if wide then 8 else 4) acc = .dmem off) ∧ (s.hart h).resv ≠ some
    (off, if wide then 8 else 4) :=
  ⟨hst, 0, true, BitVec.ofNat 64 (dmemBase + 16), 5, 3, 16, by decide +kernel⟩

theorem witness_HartAtomicsComplete_4 :
  ∃ (s : State) (h : Hart) (_fn : AmoFn) (wide : Bool) (addr _val : DWord) (_rd : Fin 32) (off : Nat), HartReady s h ∧
    addr.toNat % (if wide then 8 else 4) = 0 ∧ hartTarget s h addr.toNat (if wide then 8 else 4) [.read, .write] = .dmem off :=
  ⟨hst, 0, .minu, false, BitVec.ofNat 64 (dmemBase + 16), 5, 3, 16, by decide +kernel⟩

theorem witness_HartAtomicsComplete_5 :
  ∃ (s : State) (h : Hart) (_fn : ScAmo) (addr _val : DWord) (_rd : Fin 32) (a : Nat), HartReady s h ∧ addr.toNat % 4
    = 0 ∧ hartTarget s h addr.toNat 4 [.read, .write] = .here a ∧ isCacheAddr a = true ∧ a % 4 = 0 ∧ s.rangePoison a 4 = false ∧ Memory.wf
    0 s.mem = true :=
  ⟨hst, 0, .min, 0x81000000000, 5, 3, 0x81000000000, by decide +kernel⟩

/-- A 1 × 1 × 1 FP32 tile that opens and closes group 1, and the same with other flags. -/
def tileDesc (flags ctrl bStride : Nat) : List Byte :=
  bytesOf 32 [(0, 1, 1), (1, 1, flags), (3, 1, ctrl), (4, 2, 1), (6, 2, 1), (8, 4, 1), (12, 4, 0x1000), (16, 4, 0x2000),
    (20, 2, 1), (22, 2, bStride)]

/-- Core 0 with a tile instruction, its operands 1 and 2, and a conversion to FP32 at 0x3000. -/
def mx (flags ctrl bStride : Nat) : State :=
  { svc with
    mem := memOf [(S0 + 0x1000, leBytes 4 0x3F800000), (S0 + 0x2000, leBytes 4 0x40000000),
      (S0 + 0x7FB000, bytesOf 32 [(4, 4, 0x3F800000), (16, 4, 0x3000), (20, 2, 1)])],
    cores := [(0, { mxe := { queue := [⟨tileDesc flags ctrl bStride, 9, false, 0⟩], seq := 10 } })] }

/-- Landing ring 0 of core 0 set up with two rows of eight lines. -/
def ringed (s : State) : State := (s.setFld .strRingCfg 0 [0] 15 0 2).setFld .strRingCfg 0 [0] 22 16 64

/-- A running ring instruction of core 0. -/
def ringRun : TileRun :=
  { ins := ⟨tileDesc 0x43 1 0, 9, false, 0⟩, mode := 4, banks := [0], drainBank := false, tiles := [(0, 0)], begun := true
    hold := some (0, 0), loads := 1, starved := true }

def mxMark : State := ringed { svc with
  cores := [(0,
    { mxe := { run := some ringRun, groups := [{}, { isOpen := true, m := 1, n := 1, mode := 4 }, {}, {}] },
      str := [{ ring := [.mark 3, .row 0 4] }, {}, {}, {}] })] }

def mergeGroup : Group :=
  { isOpen := true, m := 1, n := 1, mode := 4, split := true, slots := 2, levels := [true, false, false],
    merging := some [[Cell.fresh]], cells := [[Cell.fresh]], closed := 2 }

def mxMerge : State := { svc with cores := [(0, { mxe := { groups := [mergeGroup, {}, {}, {}] } })] }

/-- Cores 1 and 2 wait for the load sequencer with one multicast set. -/
def mxWait : State :=
  let r := ⟨List.replicate 64 0, 0, none, 0, 0, 0, 0, 0, 0, [], false, false, [1, 2], none, 0, 0, 0, false, false, 0⟩
  let w := { ringRun with staggerWait := true }
  { svc with
    cores := [(0, { str := [{ active := [some r, none, none, none] }, {}, {}, {}] }), (1, { mxe := { run := some w } }), (2, { mxe := { run := some w } })] }

/-- The cells of a row of one column that holds 3. -/
def row0 : List Cell := [⟨a40Image (FVal.fin false 3 0), false⟩]

/-- A drain of one row, into the scratchpad or the egress queue of unit 2. -/
def drainOf (conv : List Byte) (wait : Bool) : Drain :=
  { ins := ⟨tileDesc 3 1 1, 9, false, 0⟩, conv, opened := true, mode := 4, loads := 1, cycles := 40, banks := [0],
    tiles := [⟨0, 0, { m := 1, n := 1, mode := 4, blocks := 1 }, some [row0], some 0⟩], waited := true, egressWait := wait }
def conv0 : List Byte := bytesOf 32 [(4, 4, 0x3F800000), (16, 4, 0x3000), (20, 2, 1)]
def conv1 : List Byte := bytesOf 32 [(3, 1, 9), (4, 4, 0x3F800000)]
def mxDrain (d : Drain) : State := { svc with cores := [(0, { mxe := { drains := [.drain d] } })] }

/-- No finished record heads an empty list of drains. -/
theorem no_ready (s : State) (k : Nat) (e : (s.mxe k).drains = []) (h : HeldCpl) :
    (s.mxe k).drains.head? ≠ some (.ready h) := by
  rw [e]; exact nofun

theorem witness_TileComplete_1 :
  ∃ (s : State) (k : CoreIx) (i : TileIns) (rest : List TileIns) (d : TileD) (g : Group) (f : Fold), (∀ h, (s.mxe k).drains.head? ≠ some (.ready h)) ∧ (∀ addr,
    addr = scratchAddr k (2048 * s.fld .mxeConvBase k [] 22 11 + 32 * d.conv) → convCheck s d addr (convD (s.bytes addr
    32)) = none) ∧ CoreReady s k ∧
    s.shaped = true ∧ mxeMayStart s k = true ∧ (s.mxe k).run = none ∧ (s.mxe k).queue = i :: rest ∧ (s.mxe k).waiters =
    [] ∧ d = tileD i.desc ∧ g = (s.mxe k).groups.getD d.group {} ∧ f = foldOf d g ∧ tileCheck s k d g f = none ∧
    overlapsDrain (s.mxe k) d (spillArea s k d g) = false ∧ waitsBanks (s.mxe k) d f = false ∧ ownDrain s k = none ∧
    (s.mxe k).behind = [] ∧ d.bRing = false ∧ d.close = true ∧ d.split = false ∧ g.merging = none :=
  ⟨mx 3 1 1, 0, ⟨tileDesc 3 1 1, 9, false, 0⟩, [], tileD (tileDesc 3 1 1), {}, foldOf (tileD (tileDesc 3 1 1)) {}, no_ready (mx 3 1 1) 0 (by decide +kernel), by intro addr h; subst h; decide +kernel,
    by decide +kernel⟩

theorem witness_TileComplete_2 :
  ∃ (s : State) (k : CoreIx) (i : TileIns) (rest : List TileIns) (d : TileD) (g : Group) (f : Fold), (∀ h, (s.mxe k).drains.head? ≠ some (.ready h)) ∧ CoreReady s k ∧
    s.shaped = true ∧ mxeMayStart s k = true ∧ (s.mxe k).run = none ∧ (s.mxe k).queue = i :: rest ∧ (s.mxe k).waiters =
    [] ∧ d = tileD i.desc ∧ g = (s.mxe k).groups.getD d.group {} ∧ f = foldOf d g ∧ tileCheck s k d g f = none ∧
    overlapsDrain (s.mxe k) d (spillArea s k d g) = false ∧ waitsBanks (s.mxe k) d f = false ∧ ownDrain s k = none ∧
    (s.mxe k).behind = [] ∧ d.bRing = false ∧ d.close = false :=
  ⟨mx 1 1 1, 0, ⟨tileDesc 1 1 1, 9, false, 0⟩, [], tileD (tileDesc 1 1 1), {}, foldOf (tileD (tileDesc 1 1 1)) {}, no_ready (mx 1 1 1) 0 (by decide +kernel),
    by decide +kernel⟩

theorem witness_TileComplete_3 :
  ∃ (s : State) (k : CoreIx) (i : TileIns) (rest : List TileIns) (d : TileD) (g : Group) (f : Fold), (∀ h, (s.mxe k).drains.head? ≠ some (.ready h)) ∧ CoreReady s k ∧
    s.shaped = true ∧ mxeMayStart s k = true ∧ (s.mxe k).run = none ∧ (s.mxe k).queue = i :: rest ∧ (s.mxe k).waiters =
    [] ∧ d = tileD i.desc ∧ g = (s.mxe k).groups.getD d.group {} ∧ f = foldOf d g ∧ tileCheck s k d g f = none ∧
    overlapsDrain (s.mxe k) d (spillArea s k d g) = false ∧ waitsBanks (s.mxe k) d f = false ∧ ownDrain s k = none ∧
    (s.mxe k).behind = [] ∧ d.bRing = true ∧ mustStagger s k d = none ∧ (s.str k d.ringUnit).ring = [] :=
  ⟨ringed (mx 0x43 1 0), 0, ⟨tileDesc 0x43 1 0, 9, false, 0⟩, [], tileD (tileDesc 0x43 1 0), {}, foldOf (tileD (tileDesc 0x43 1 0)) {}, no_ready (ringed (mx 0x43 1 0)) 0 (by decide +kernel),
    by decide +kernel⟩

theorem witness_MatrixSequencerComplete_1 :
  ∃ (s : State) (k : CoreIx) (r : TileRun) (d : TileD) (ents : List RingEnt), (∀ x, r.tiles.head? = some x →
    r.hold = some (x.1, r.kDone / modeDepth r.mode d.fmtA)) ∧ (∃ b, (s.str k d.ringUnit).ring = .mark b :: ents) ∧
    CoreReady s k ∧ s.shaped = true ∧ (s.mxe k).run = some r ∧ r.staggerWait = false ∧ r.overlap = false ∧
    d = tileD r.ins.desc ∧ d.bRing = true ∧ r.taken = [] ∧ r.begun = true ∧ r.kDone < d.k ∧
    (∀ x ∈ r.tiles, x.2 * modeWidth r.mode < d.n) ∧ r.tiles ≠ [] ∧ 1 ≤ r.mode ∧ r.mode ≤ 4 ∧ (s.mxe k).behind = [] ∧
    (s.mxe k).drains = [] ∧ (s.mxe k).held = [] ∧ cplFull (s.mxe k).head (s.mxe k).tail = false :=
  ⟨mxMark, 0, ringRun, tileD ringRun.ins.desc, [.row 0 4], by intro x h; cases h; decide +kernel, ⟨3, by decide +kernel⟩,
    by decide +kernel⟩

theorem witness_MatrixSequencerComplete_2 :
  ∃ (s : State) (k : CoreIx) (n : UnitIx) (g : Group) (v : Cells), s.on = true ∧ s.shaped = true ∧ (s.mxe k).drains =
    [] ∧ g = (s.mxe k).groups.getD n {} ∧ g.merging = some v ∧ freeLevel g < g.levels.length :=
  ⟨mxMerge, 0, 0, mergeGroup, [[Cell.fresh]], by decide +kernel, by decide +kernel, by decide +kernel, rfl,
    by decide +kernel⟩

theorem witness_MatrixSequencerComplete_3 :
  ∃ (s : State) (c : ClusterIx) (k m : Nat) (r : TileRun), s.on = true ∧ 8 * c.val ≤ k ∧ k < 8 * c.val + 8 ∧ (s.mxe
    k).run = some r ∧ r.staggerWait = true ∧ multicastSet s k (tileD r.ins.desc).ringUnit = some m ∧ ((∀ j r', 8 * c.val
    ≤ j → j < k → (s.mxe j).run = some r' → r'.staggerWait = true → multicastSet s j (tileD r'.ins.desc).ringUnit ≠ some
    m)) :=
  ⟨mxWait, 0, 1, 6, { ringRun with staggerWait := true }, by decide +kernel, by decide +kernel, by decide +kernel,
    by decide +kernel, by decide +kernel, by decide +kernel,
    by intro j r' h1 h2 e; obtain rfl : j = 0 := (by simp at h2; omega); rw [show (mxWait.mxe 0).run = none by decide +kernel] at e; cases e⟩

theorem witness_CellBlockIsOneRoundedSum_1 :
  ∃ (fa fb : Nat) (_c : Cell) (ps : List (Elem × Elem)) (xs ys : List Int), ps.map (fun p => elemVal fa p.1.1) =
    xs.map FVal.ofInt ∧ ps.map (fun p => elemVal fb p.2.1) = ys.map FVal.ofInt :=
  ⟨6, 6, Cell.freshInt, [((2, false), (255, false))], [2], [-1], by decide +kernel⟩

theorem witness_TileDrainComplete_1 :
  ∃ (s : State) (k : CoreIx) (x : Drain) (tl : DrainTile) (d : TileD) (c : ConvD) (row : List Cell), ∃ b a, CoreReady s k ∧ (s.mxe
    k).drains = [.drain x] ∧ x.tiles = [tl] ∧ x.row = 0 ∧ d = tileD x.ins.desc ∧ c = convD x.conv ∧ x.more = false ∧
    tl.final = some [row] ∧ (tl.rmask.getD 0).getLsbD (tl.m0 % 128) = false ∧
    (s.mxe k).held = [] ∧ cplFull (s.mxe k).head (s.mxe k).tail = false ∧ Memory.wf 0 s.mem = true ∧ c.dest = 0 ∧ a =
    scratchAddr k (c.outAddr + tl.m0 * c.outStride * 64 + (elemSpan c.fmt tl.n0).1) ∧ b = packRow c.fmt (pipeRow s k d c
    tl.group.isInt tl.m0 tl.n0 row).elems ∧ a % 64 = 0 ∧ regionOf a = .scratch k (a %
    2^23) ∧ a % 2^23 + b.length ≤ 2^23 ∧ ((a + b.length ≤ s.cplSlot (.mxe k) ((s.mxe k).tail.toNat % 16) ∨ s.cplSlot
    (.mxe k) ((s.mxe k).tail.toNat % 16) + 1088 ≤ a)) :=
  ⟨mxDrain (drainOf conv0 false), 0, drainOf conv0 false, (drainOf conv0 false).tiles.headD ⟨0, 0, {}, none, none⟩, tileD
    (drainOf conv0 false).ins.desc, convD conv0, row0, leBytes 4 0x40400000, S0 + 0x3000, by decide +kernel⟩

theorem witness_TileDrainComplete_2 :
  ∃ (s : State) (k : CoreIx) (x : Drain) (tl : DrainTile) (d : TileD) (c : ConvD) (row : List Cell) (u : UnitIx), CoreReady s k ∧ (s.mxe
    k).drains = [.drain x] ∧ x.tiles = [tl] ∧ x.row = 0 ∧ d = tileD x.ins.desc ∧ c = convD x.conv ∧ x.more = false ∧
    tl.final = some [row] ∧ (tl.rmask.getD 0).getLsbD (tl.m0 % 128) = false ∧
    (s.mxe k).held = [] ∧ cplFull (s.mxe k).head (s.mxe k).tail = false ∧ Memory.wf 0 s.mem = true ∧ c.dest = 1 ∧
    c.egressUnit = u.val ∧ x.egressWait = true ∧ s.shaped = true ∧ egressLines (s.str k u) + ceilDiv (packRow c.fmt
    (pipeRow s k d c tl.group.isInt tl.m0 tl.n0 row).elems).length 64 ≤ 512 :=
  ⟨mxDrain (drainOf conv1 true), 0, drainOf conv1 true, (drainOf conv1 true).tiles.headD ⟨0, 0, {}, none, none⟩, tileD
    (drainOf conv1 true).ins.desc, convD conv1, row0, 2, by decide +kernel⟩

theorem witness_EngineControlComplete_1 :
  ∃ (s : State) (k : CoreIx), s.on = true ∧ mxeBusy s k = false :=
  ⟨mxMark.modMxe 0 fun m => { m with run := none }, 0, by decide +kernel⟩

theorem witness_EngineControlComplete_2 :
  ∃ (s : State) (k : CoreIx), s.on = true ∧ mxeBusy s k = true :=
  ⟨mxMark, 0, by decide +kernel⟩

theorem witness_EngineControlComplete_3 :
  ∃ (s : State) (k : CoreIx), s.on = true ∧ (s.mxe k).waiters = [] :=
  ⟨mx 3 1 1, 0, by decide +kernel⟩

theorem witness_EngineControlComplete_4 :
  ∃ (s : State) (_k : CoreIx), s.on = true :=
  ⟨mx 3 1 1, 0, by decide +kernel⟩

theorem witness_EngineControlComplete_5 :
  ∃ (s : State) (e : EngineSel) (head : BitVec 5), s.on = true ∧ s.shaped = true ∧ headOk (s.cplHead (engOf e)) head
    (s.cplTail (engOf e)) = true ∧ s.cplHeld (engOf e) = [] :=
  ⟨{ svc with cores := [(0, { str := [{}, { tail := 3 }, {}, {}] })] }, .str 0 1, 3, by decide +kernel⟩

theorem witness_EngineControlComplete_6 :
  ∃ (s : State) (e : EngineSel) (head : BitVec 5), s.on = true ∧ s.shaped = true ∧ headOk (s.cplHead (engOf e)) head
    (s.cplTail (engOf e)) = false :=
  ⟨{ svc with cores := [(0, { vxe := { tail := 3 } })] }, .vxe 0, 4, by decide +kernel⟩

theorem witness_EngineControlComplete_7 :
  ∃ (s : State) (k : CoreIx), s.on = true ∧ (s.vxe k).waiters = [] :=
  ⟨{ svc with cores := [(0, { vxe := { queue := [⟨[], 0, true, 0⟩] } })] }, 0, by decide +kernel⟩

theorem witness_EngineControlComplete_8 :
  ∃ (s : State) (_k : CoreIx), s.on = true :=
  ⟨svc, 127, by decide +kernel⟩

/-- A vector instruction on FP32 at 0x1000 and 0x2000 into 0x3000. -/
def vecDesc (op flags aux len rowLen srcB imm : Nat) : List Byte :=
  bytesOf 32 [(0, 1, op), (1, 1, flags), (3, 1, aux), (4, 3, len), (8, 2, rowLen), (12, 4, 0x1000), (16, 4, srcB),
    (20, 4, 0x3000), (28, 4, imm)]

/-- Core 0 with a vector instruction and the elements 1, −2 and 3, −0 at the places that it reads. -/
def vx (desc : List Byte) : State :=
  { svc with
    mem := memOf [(S0 + 0x1000, leBytes 4 0x3F800000 ++ leBytes 4 0xC0000000),
      (S0 + 0x2000, leBytes 4 0x40400000 ++ leBytes 4 0x80000000)],
    cores := [(0, { vxe := { queue := [⟨desc, 9, true, 0⟩], seq := 10 } })] }

def addDesc : List Byte := vecDesc 1 0 0 2 0 0x2000 0
def badDesc : List Byte := vecDesc 0x0A 0 0 0 0 0x2000 0
def sumDesc : List Byte := vecDesc 0x20 2 0 2 2 0 0
def smaxDesc : List Byte := vecDesc 0x30 2 0 2 2 0 0
def lutDesc : List Byte := vecDesc 0x11 0 7 1 0 0 0
def smpDesc : List Byte := vecDesc 0x40 0 0 2 0 0x2000 0
/-- A sampling block of temperature 0. -/
def smpState : State := { vx smpDesc with mem := memOf [(S0 + 0x1000, leBytes 4 0x3F800000 ++ leBytes 4 0xC0000000)] }

theorem witness_VectorInstructionsComplete_1 :
  ∃ (s : State) (k : CoreIx) (i : TileIns) (rest : List TileIns) (p : Nat × (CoreIx → Instr)), VecReady s k i rest ∧ p
    ∈ vecCommands ∧ fieldAt i.desc 0 1 = p.1 :=
  ⟨vx addDesc, 0, ⟨addDesc, 9, true, 0⟩, [], (1, .add), by decide +kernel, by simp [vecCommands], by decide +kernel⟩

theorem witness_VectorInstructionsComplete_2 :
  ∃ (s : State) (k : CoreIx) (i : TileIns) (rest : List TileIns) (p : Nat × (CoreIx → Instr)), ∃ st, ∃ det, ∃ a,
    VecReady s k i rest ∧ p ∈ vecCommands ∧ fieldAt i.desc 0 1 = p.1 ∧ vecCheck s k (vecD i.desc) = some (st, det) ∧ a =
    s.cplSlot (.vxe k) ((s.vxe k).tail.toNat % 16) :=
  ⟨vx badDesc, 0, ⟨badDesc, 9, true, 0⟩, [], (0x0A, .div), .zero, 0, (vx badDesc).cplSlot (.vxe 0) 0, by decide +kernel,
    by simp [vecCommands], by decide +kernel⟩

theorem witness_VectorElementwiseFp32Result_1 :
  ∃ (s : State) (k : CoreIx) (i : TileIns) (rest : List TileIns) (p : Nat × (CoreIx → Instr)) (d : VecD) (c : VCtx)
    (tab : Option VTable), VecReady s k i rest ∧ p ∈ vecCommands ∧ 1 ≤ p.1 ∧ p.1 ≤ 0x10 ∧ p.1 ≠ 9 ∧ fieldAt i.desc 0 1 =
    p.1 ∧ d = vecD i.desc ∧ c = ⟨k, d⟩ ∧ tab = (s.vxe k).tables.getD (d.aux % 8) none ∧ vecCheck s k d = none ∧ d.maskEn
    = false ∧ d.rows = false ∧ d.fmtA = 0 ∧ d.fmtD = 0 ∧ d.len ≤ 1024 ∧ s.rangePoison (c.sp d.srcA) (4 * d.len) = false
    ∧ s.rangePoison (c.sp d.dst) (4 * d.len) = false ∧ ((vecBinary p.1 = true → d.bmode = 0 → s.rangePoison (c.sp
    d.srcB) (4 * d.len) = false)) ∧ ((s.cplSlot (.vxe k) ((s.vxe k).tail.toNat % 16) + 32 ≤ c.sp d.dst ∨ c.sp d.dst + 4
    * d.len ≤ s.cplSlot (.vxe k) ((s.vxe k).tail.toNat % 16))) :=
  ⟨vx addDesc, 0, ⟨addDesc, 9, true, 0⟩, [], (1, .add), vecD addDesc, ⟨0, vecD addDesc⟩, none, by decide +kernel,
    by simp [vecCommands], by decide +kernel, by decide +kernel, by decide +kernel, by decide +kernel, rfl, rfl,
    by decide +kernel⟩

theorem witness_VectorIntegerAndCompareRules_1 :
  ∃ (a b : Int), -2^31 ≤ a ∧ a < 2^31 ∧ -2^31 ≤ b ∧ b < 2^31 :=
  ⟨-2^31, 2^31 - 1, by decide +kernel⟩

theorem witness_VectorIntegerAndCompareRules_2 :
  ∃ (a b : FVal), ((a = .nan ∨ b = .nan)) :=
  ⟨.nan, .inf true, by decide +kernel⟩

theorem witness_VectorReductionResult_1 :
  ∃ (s : State) (k : CoreIx) (i : TileIns) (rest : List TileIns) (p : Nat × (CoreIx → Instr)) (d : VecD) (c : VCtx),
    VecReady s k i rest ∧ p ∈ vecCommands ∧ 0x20 ≤ p.1 ∧ p.1 ≤ 0x23 ∧ fieldAt i.desc 0 1 = p.1 ∧ d = vecD i.desc ∧ c =
    ⟨k, d⟩ ∧ vecCheck s k d = none ∧ d.maskEn = false ∧ d.nRows = 1 ∧ (c.row s 0).any (fun e => e.2.2) = false ∧
    ((s.cplSlot (.vxe k) ((s.vxe k).tail.toNat % 16) + 32 ≤ c.sp d.dst ∨ c.sp d.dst + 4 ≤ s.cplSlot (.vxe k) ((s.vxe
    k).tail.toNat % 16))) :=
  ⟨vx sumDesc, 0, ⟨sumDesc, 9, true, 0⟩, [], (0x20, .redsum), vecD sumDesc, ⟨0, vecD sumDesc⟩, by decide +kernel,
    by simp [vecCommands], by decide +kernel, by decide +kernel, by decide +kernel, rfl, rfl, by decide +kernel⟩

theorem witness_VectorSoftmaxTableAndSampleComplete_1 :
  ∃ (s : State) (k : CoreIx) (i : TileIns) (rest : List TileIns) (d : VecD) (f : VCtx → VAcc → Nat → VAcc) (p : Nat ×
    (CoreIx → Instr) × (VCtx → VAcc → Nat → VAcc)), VecReady s k i rest ∧ p ∈ [(0x30, Instr.smaxRow, smaxRow), (0x31,
    .smaxRescale, smaxRescale), (0x32, .smaxMerge, smaxMerge), (0x33, .smaxFinal, smaxFinal)] ∧ f = p.2.2 ∧ fieldAt
    i.desc 0 1 = p.1 ∧ d = vecD i.desc ∧ vecCheck s k d = none ∧ d.maskEn = false :=
  ⟨vx smaxDesc, 0, ⟨smaxDesc, 9, true, 0⟩, [], vecD smaxDesc, smaxRow, (0x30, .smaxRow, smaxRow), by decide +kernel,
    by simp, rfl, by decide +kernel, rfl, by decide +kernel⟩

theorem witness_VectorSoftmaxTableAndSampleComplete_2 :
  ∃ (s : State) (k : CoreIx) (i : TileIns) (rest : List TileIns) (d : VecD) (a : Nat), VecReady s k i rest ∧ fieldAt
    i.desc 0 1 = 0x11 ∧ d = vecD i.desc ∧ vecCheck s k d = none ∧ d.maskEn = false ∧ a = scratchAddr k d.srcA ∧
    s.rangePoison a 2112 = false ∧ (s.vxe k).tables.length = 8 ∧ (fp32.decode (leNat (s.bytes a 4))).isNan = false ∧
    (fp32.decode (leNat (s.bytes a 4))).isInf = false ∧ (fp32.decode (leNat (s.bytes (a + 4) 4))).isNan = false ∧
    (fp32.decode (leNat (s.bytes (a + 4) 4))).isInf = false ∧ (fp32.decode (leNat (s.bytes (a + 4) 4))).isZero = false ∧
    (fp32.decode (leNat (s.bytes (a + 4) 4))).sign = false :=
  ⟨{ vx lutDesc with mem := memOf [(S0 + 0x1004, leBytes 4 0x3F800000)] }, 0, ⟨lutDesc, 9, true, 0⟩, [], vecD lutDesc, S0
    + 0x1000, by decide +kernel, by decide +kernel, rfl, by decide +kernel⟩

theorem witness_VectorSoftmaxTableAndSampleComplete_3 :
  ∃ (s : State) (k : CoreIx) (i : TileIns) (rest : List TileIns) (d : VecD) (c : VCtx) (p : List Byte) (row : List
    (Nat × FVal × Bool)) (tok kept : Nat) (lf lk : FVal) (fl : VFlags), VecReady s k i rest ∧ fieldAt i.desc 0 1 = 0x40
    ∧ d = vecD i.desc ∧ c = ⟨k, d⟩ ∧ vecCheck s k d = none ∧ d.maskEn = false ∧ p = s.bytes (c.sp d.srcB) 32 ∧
    s.rangePoison (c.sp d.srcB) 32 = false ∧ sampleParamBad p = false ∧ row = (List.range d.len).map (fun j => (j, c.a s
    j)) ∧ row.any (fun e => e.2.2) = false ∧ sampleDraw d p (row.map fun e => (e.1, e.2.1)) = (some (tok, lf, lk, kept),
    fl) ∧ s.rangePoison (c.sp d.dst) 16 = false ∧ ((s.cplSlot (.vxe k) ((s.vxe k).tail.toNat % 16) + 32 ≤ c.sp d.dst ∨
    c.sp d.dst + 16 ≤ s.cplSlot (.vxe k) ((s.vxe k).tail.toNat % 16))) :=
  ⟨smpState, 0, ⟨smpDesc, 9, true, 0⟩, [], vecD smpDesc, ⟨0, vecD smpDesc⟩, List.replicate 32 0, [(0, .fin false 0x800000
    (-23), false), (1, .fin true 0x800000 (-22), false)], 0, 1, .fin true 13042562 (-28), .fin false 0 0, 0,
    by decide +kernel, by decide +kernel, rfl, rfl, by decide +kernel⟩

/-- A stream descriptor of `n1` rows of 64 bytes from 0x1000 to 0x3000 of the core's own scratchpad. -/
def strDesc (op flags n1 : Nat) : List Byte :=
  bytesOf 64 [(0, 1, op), (1, 1, flags), (12, 4, 64), (16, 8, if op = 3 then 0 else 2 ^ 63 + 0x1000),
    (24, 8, if op = 2 then 0 else 2 ^ 63 + 0x3000), (32, 4, n1), (36, 4, 1), (40, 4, if op = 3 then 0 else 64),
    (48, 4, if op = 2 then 0 else 64)]

/-- Core 0's unit 0 with a descriptor, a row to move, an egress row and a landing ring of two rows at 0x4000. -/
def st (op n1 : Nat) : State :=
  ((svc.setFld .strRingCfg 0 [0] 15 0 2).setFld .strRingCfg 0 [0] 22 16 2).setReg .strRingBase 0 [0] 0x4000 |> fun s =>
    { s with
      mem := memOf [(S0 + 0x1000, leBytes 8 0x1122334455667788)],
      cores := [(0, { str := [
        { queue := [⟨strDesc op 0 n1, 9, false, 0⟩], seq := 10, egress := [⟨List.replicate 64 7, []⟩, ⟨[1], []⟩] },
        {}, {}, {}] })] }

/-- A run of a descriptor. -/
def runOf (desc : List Byte) (set : List Nat) (halted : Option Nat) (va : Nat) : StrRun :=
  ⟨desc, 9, none, 0, 0, 0, 0, 0, 0, [], false, false, set, halted, 0, va, 0, false, false, 0⟩

/-- A multicast of two rows to cores 0 and 1 runs on the drill of cluster 0. -/
def drill : State :=
  let s := st 2 1
  let s := ((s.setFld .strRingCfg 1 [0] 15 0 2).setFld .strRingCfg 1 [0] 22 16 2).setReg .strRingBase 1 [0] 0x4000
  { s with cores := [(0, { str := [{ active := [some (runOf (strDesc 2 8 2) [0, 1] none 0), none, none, none] }, {}, {}, {}] })] }

/-- Unit 0 of core 0 waits at a fault; page 0 has a large leaf, and page 0x20_0000 lies in tier 1. -/
def walkMem : Memory := memOf [(0x1000, leBytes 8 0x2001), (0x2000, leBytes 8 0x3001), (0x3000, leBytes 8 0x200003),
  (0x3008, leBytes 8 0x4001), (0x4000, leBytes 8 (2 ^ 60))]
def faulted (va : Nat) : State :=
  { svc with
    regs := SMap.set [] (regOff .xltRootLo 0 [0]) 0x1000, mem := walkMem, tiering := { frames := [64, 65] },
    clusters := [(0, { faults := [⟨0, 0, 0, 0, va, 1⟩] })],
    cores := [(0, { str := [{ active := [some (runOf (strDesc 1 0 1) [] (some 1) va), none, none, none] }, {}, {}, {}] })] }

def page0 : List Byte := List.replicate 65536 0
def filling : State :=
  { faulted 0x200000 with
    clusters := [(0, { fills := [{ ctx := 0, va := 0x200000, frame := some 64, asked := true }] })], cores := [],
    tiering := { frames := [65], fps := [(BitVec.ofNat 64 (2 ^ 60), fingerprint page0)] } }

/-- No channel is fenced and no stack offline. -/
theorem filling_open (x : Nat) : filling.dramShut x = false := by
  unfold State.dramShut
  split
  · rfl
  · rfl

theorem witness_StreamCommandsTakeTheHead_1 :
  ∃ (s : State) (k : CoreIx) (u : UnitIx) (i : TileIns) (rest : List TileIns) (p : Nat × (CoreIx → UnitIx → Instr)),
    StrReady s k u i rest ∧ p ∈ strCommands ∧ (strD i.desc).opcode = p.1 ∧ strCheck s k u (strD i.desc) false = none :=
  ⟨st 1 1, 0, 0, ⟨strDesc 1 0 1, 9, false, 0⟩, [], (1, .copy), by decide +kernel, by simp [strCommands],
    by decide +kernel⟩

theorem witness_StreamCommandsTakeTheHead_2 :
  ∃ (s : State) (k : CoreIx) (u : UnitIx) (i : TileIns) (rest : List TileIns) (p : Nat × (CoreIx → UnitIx → Instr)), ∃
    st, ∃ det, ∃ a, StrReady s k u i rest ∧ p ∈ strCommands ∧ (strD i.desc).opcode = p.1 ∧ strCheck s k u (strD i.desc)
    false = some (st, det) ∧ a = s.cplSlot (.str k u) ((s.str k u).tail.toNat % 16) :=
  ⟨st 4 0, 0, 0, ⟨strDesc 4 0 0, 9, false, 0⟩, [], (4, .atomic), .zero, 0, (st 4 0).cplSlot (.str 0 0) 0,
    by decide +kernel, by simp [strCommands], by decide +kernel⟩

/-- The ATOMIC addition of one line of INT32 elements from core 0's scratchpad into the shared cache, which page 0 maps. -/
def atDesc : List Byte :=
  bytesOf 64 [(0, 1, 4), (4, 1, 12), (12, 4, 64), (16, 8, 2 ^ 63 + 0x1000), (24, 8, 0x40), (32, 4, 1), (36, 4, 1), (40, 4, 64),
    (48, 4, 64)]
def atEnt : TlbEnt := ⟨0, 0, 1, 0x81000000007⟩
def atomics : State :=
  { svc with
    mem := memOf [(S0 + 0x1000, leBytes 8 0x1122334455667788), (0x81000000040, leBytes 4 0xFFFFFFFF)]
    regs := SMap.set (SMap.set [] (regOff .xltCtrl 0) 1) (regOff .cluScCfg 0) 16, clusters := [(0, { tlb := [atEnt] })]
    cores := [(0, { str := [{ queue := [⟨atDesc, 9, false, 0⟩], seq := 10 }, {}, {}, {}] })] }

theorem witness_LocalStreamsComplete_1 :
  ∃ (s : State) (k : CoreIx) (u : UnitIx) (i : TileIns) (rest : List TileIns) (d : StrD) (src dst a : Nat), StrReady s
    k u i rest ∧ d = strD i.desc ∧ d.opcode = 1 ∧ strCheck s k u d false = none ∧ d.persistent = false ∧ d.digestEn =
    false ∧ isLocal d.src = true ∧ isLocal d.dst = true ∧ d.n1 = 1 ∧ d.n2 = 1 ∧ d.resOff = 0 ∧ src = scratchAddr k (bits
    d.src 22 0) ∧ dst = scratchAddr k (bits d.dst 22 0) ∧ a = s.cplSlot (.str k u) ((s.str k u).tail.toNat % 16) ∧
    s.rangePoison src d.rowLen = false ∧ ((src + d.rowLen ≤ dst ∨ dst + d.rowLen ≤ src)) ∧ ((dst + d.rowLen ≤ a ∨ a + 32
    ≤ dst)) :=
  ⟨st 1 1, 0, 0, ⟨strDesc 1 0 1, 9, false, 0⟩, [], strD (strDesc 1 0 1), S0 + 0x1000, S0 + 0x3000, (st 1 1).cplSlot (.str
    0 0) 0, by decide +kernel, rfl, by decide +kernel⟩

theorem witness_LocalStreamsComplete_2 :
  ∃ (s : State) (k : CoreIx) (u : UnitIx) (i : TileIns) (rest : List TileIns) (d : StrD) (src slot ring a : Nat), StrReady
    s k u i rest ∧ d = strD i.desc ∧ d.opcode = 2 ∧ strCheck s k u d false = none ∧ d.persistent = false ∧ d.digestEn =
    false ∧ d.mcast = false ∧ isLocal d.src = true ∧ d.n1 = 1 ∧ d.n2 = 1 ∧ d.resOff = 0 ∧ ringFill (s.str k u) <
    ringRows s k u ∧ ringHeldByOther s k u i.seq k = false ∧ src = scratchAddr k (bits d.src 22 0) ∧ slot = freeRingSlot (s.str k u).ring (ringRows s k u) (ringRows s k u) (s.str k u).ringNext ∧ ring = ringRowAddr
    s k u slot ∧ a = s.cplSlot (.str k u) ((s.str k u).tail.toNat % 16) ∧ s.rangePoison src d.rowLen =
    false ∧ ring + ringRowBytes s k u ≤ scratchAddr (k.val + 1) 0 ∧ ((src + d.rowLen ≤ ring ∨ ring + ringRowBytes s k u
    ≤ src)) ∧ ((ring + ringRowBytes s k u ≤ a ∨ a + 32 ≤ ring)) :=
  ⟨st 2 1, 0, 0, ⟨strDesc 2 0 1, 9, false, 0⟩, [], strD (strDesc 2 0 1), S0 + 0x1000, 0, S0 + 0x4000, (st 2 1).cplSlot (.str
    0 0) 0, by decide +kernel, by decide +kernel, rfl, by decide +kernel⟩

theorem witness_LocalStreamsComplete_3 :
  ∃ (s : State) (k : CoreIx) (u : UnitIx) (i : TileIns) (rest : List TileIns) (d : StrD) (e : EgressRow) (more : List
    EgressRow) (dst a : Nat), StrReady s k u i rest ∧ d = strD i.desc ∧ d.opcode = 3 ∧ strCheck s k u d false = none ∧
    d.persistent = false ∧ isLocal d.dst = true ∧ d.n1 = 1 ∧ d.n2 = 1 ∧ d.resOff = 0 ∧ (s.str k u).egress = e :: more ∧
    ceilDiv e.bytes.length 64 = d.rowLen / 64 ∧ e.poisonLines = [] ∧ dst = scratchAddr k (bits d.dst 22 0) ∧ a =
    s.cplSlot (.str k u) ((s.str k u).tail.toNat % 16) ∧ ((dst + d.rowLen ≤ a ∨ a + 32 ≤ dst)) :=
  ⟨st 3 1, 0, 0, ⟨strDesc 3 0 1, 9, false, 0⟩, [], strD (strDesc 3 0 1), ⟨List.replicate 64 7, []⟩, [⟨[1], []⟩], S0 +
    0x3000, (st 3 1).cplSlot (.str 0 0) 0, by decide +kernel, rfl, by decide +kernel⟩

theorem witness_LocalStreamsComplete_4 :
  ∃ (s : State) (c : ClusterIx) (j u a : Nat) (r : StrRun) (d : StrD) (src : Nat), s.on = true ∧ s.shaped = true ∧
    Memory.wf 0 s.mem = true ∧ j < 8 ∧ u < 4 ∧ a < 4 ∧ (s.str (8 * c.val + j) u).active.getD a none = some r ∧ ((∀ p ∈
    clusterSlots, p ≠ (j, u, a) → (s.str (8 * c.val + p.1) p.2.1).active.getD p.2.2 none = none)) ∧ NoHeldRearm s (8 *
    c.val + j) u ∧ d = strD r.desc ∧ d.opcode = 2 ∧ d.mcast = true ∧ d.digestEn = false ∧ r.halted = none ∧ r.badRow = false ∧ r.off = 0 ∧
    r.i < d.n1 ∧ r.j < d.n2 ∧ 64 ≤ d.rowLen ∧ d.rowLen % 64 = 0 ∧ isLocal d.src = true ∧ src = scratchAddr (8 * c.val +
    j) (bits d.src 22 0 + srcOff d r) ∧ s.rangePoison src d.rowLen = false ∧ r.set.Nodup ∧ ((∀ m ∈ r.set, m < 128)) ∧
    ringsReady s (8 * c.val + j) u d r = true :=
  ⟨drill, 0, 0, 0, 0, runOf (strDesc 2 8 2) [0, 1] none 0, strD (strDesc 2 8 2), S0 + 0x1000,
    by decide +kernel⟩

theorem witness_LocalStreamsComplete_5 :
  ∃ (s : State) (k : CoreIx) (u : UnitIx) (i : TileIns) (rest : List TileIns) (d : StrD) (e : TlbEnt) (src va dst a : Nat),
    (s.cluster (k / 8)).tlb.find? (fun e => e.ctx == strCtx s k u && decide (e.page ≤ va / 65536)
      && decide (va / 65536 < e.page + e.pages)) = some e ∧
    StrReady s k u i rest ∧ d = strD i.desc ∧ d.opcode = 4 ∧ d.ty = 3 ∧ strCheck s k u d false = none ∧
    d.persistent = false ∧ d.digestEn = false ∧ d.mcast = false ∧ isLocal d.src = true ∧ isLocal d.dst = false ∧
    d.rowLen = 64 ∧ d.resOff = 0 ∧ d.n1 = 1 ∧ d.n2 = 1 ∧ src = scratchAddr k (bits d.src 22 0) ∧ s.linePoison src = false ∧
    va = bits d.dst 47 0 ∧ s.fld .xltCtrl (k / 8) [] 0 0 = 1 ∧ bit e.leaf.toNat 2 = true ∧
    s.locate (bits e.leaf.toNat 55 12 * 4096 + (va - e.page * 65536)) = .here dst ∧ dst % 64 = 0 ∧ isCache dst = true ∧
    a = s.cplSlot (.str k u) ((s.str k u).tail.toNat % 16) ∧ (dst + 64 ≤ a ∨ a + 32 ≤ dst) :=
  ⟨atomics, 0, 0, ⟨atDesc, 9, false, 0⟩, [], strD atDesc, atEnt, S0 + 0x1000, 0x40, 0x81000000040,
    atomics.cplSlot (.str 0 0) 0, by decide +kernel⟩

/-- R196: INT32 elements add with wraparound, and a clean ATOMIC completes with OK. -/
theorem test_atomic_line :
    gives (exec (.atomic 0 0) atomics) (fun t => t.bytes 0x81000000040 8 == leBytes 4 0x55667787 ++ leBytes 4 0x11223344
      && t.byte (atomics.cplSlot (.str 0 0) 0) == 0 && (t.str 0 0).queue.isEmpty) = true := by decide +kernel

theorem witness_TranslationFaultsAndFillsComplete_1 :
  ∃ (s : State) (c : ClusterIx) (f : FaultRep) (more : List FaultRep) (r : StrRun), ∃ e, ∃ l, s.on = true ∧ (s.cluster
    c).faults = f :: more ∧ (s.str f.core f.unit).active.getD f.slot none = some r ∧ r.halted = some f.cause ∧ r.faultVa
    = f.va ∧ (walk (s.modCluster c fun x => { x with faults := more }) c f.ctx f.va).2 = .leaf e l :=
  ⟨faulted 0x10000, 0, ⟨0, 0, 0, 0, 0x10000, 1⟩, [], runOf (strDesc 1 0 1) [] (some 1) 0x10000, 0x200003, 3,
    by decide +kernel⟩

theorem witness_TranslationFaultsAndFillsComplete_2 :
  ∃ (s : State) (c : ClusterIx) (f : FaultRep) (more : List FaultRep) (r : StrRun) (x a p : Nat), s.on = true ∧ (s.cluster
    c).faults = f :: more ∧ (s.str f.core f.unit).active.getD f.slot none = some r ∧ r.halted = some f.cause ∧ r.faultVa
    = f.va ∧ (walk (s.modCluster c fun x => { x with faults := more }) c f.ctx f.va).2 = .fail .notValid x a ∧ x = 4 ∧ 1
    ≤ tierOf (leNat (s.bytes a 8)) ∧ tierOf (leNat (s.bytes a 8)) ≤ 3 ∧ (s.cluster c).fills = [] ∧
    s.dev.mode ≠ .failed ∧ s.tiering.frames.find? (fun f => !pageRetired s f) = some p :=
  ⟨faulted 0x200000, 0, ⟨0, 0, 0, 0, 0x200000, 1⟩, [], runOf (strDesc 1 0 1) [] (some 1) 0x200000, 4, 0x4000, 64,
    by decide +kernel⟩

theorem witness_TranslationFaultsAndFillsComplete_3 :
  ∃ (s : State) (c : ClusterIx) (ctx : Fin 8) (va : BitVec 48) (b : List Byte) (a e f : Nat)
    (l : List (Nat × Nat × Nat)) (fp : DWord), s.tiering.fps.find? (fun x => x.1 == BitVec.ofNat 64 e)
    = some (BitVec.ofNat 64 e, fp) ∧ fingerprint b = fp ∧ (∀ x, x < 0x80000000000 → s.dramShut x = false) ∧
    s.on = true ∧ Memory.wf 0 s.mem = true ∧ (s.cluster c).fills =
      [{ ctx := ctx.val, va := va.toNat / 65536 * 65536, frame := some f, after := l, asked := true }] ∧
    pageWaiters s c ctx (va.toNat / 65536) = [] ∧ leafAddr s c ctx va.toNat = some (a, e) ∧ b.length = 65536 ∧
    tableCopy s a = none ∧ f * 65536 + 65536 ≤ 0x80000000000 ∧ a + 8 ≤ 0x80000000000 ∧ a % 8 = 0 ∧
    (a + 8 ≤ f * 65536 ∨ f * 65536 + 65536 ≤ a) :=
  ⟨filling, 0, 0, 0x20FFFF, page0, 0x4000, 2 ^ 60, 64, [], fingerprint page0, rfl, rfl, fun x _ => filling_open x,
    by decide +kernel⟩

theorem witness_StreamControlComplete_1 :
  ∃ (s : State) (k : CoreIx) (u slot : UnitIx), ∃ r, s.on = true ∧ s.shaped = true ∧ NoHeldRearm s k u ∧ (s.str k
    u).active.getD slot none = some r ∧ r.halted.isSome = true ∧ r.faultAt + 100000000 ≤ s.pst.up ∧ r.pers = none ∧
    (s.str k u).held = [] ∧ cplFull (s.str k u).head (s.str k u).tail = false :=
  ⟨faulted 0, 0, 0, 0, runOf (strDesc 1 0 1) [] (some 1) 0, by decide +kernel⟩

theorem witness_StreamControlComplete_2 :
  ∃ (s : State) (k : CoreIx) (u : UnitIx), s.on = true ∧ s.shaped = true ∧ NoHeldRearm s k u :=
  ⟨faulted 0, 0, 0, by decide +kernel⟩

theorem witness_StreamControlComplete_3 :
  ∃ (s : State) (k : CoreIx) (u : UnitIx), s.on = true ∧ s.shaped = true ∧ NoHeldRearm s k u ∧ (s.str k u).waiters =
    [] :=
  ⟨st 1 1, 0, 0, by decide +kernel⟩

theorem witness_StreamControlComplete_4 :
  ∃ (s : State) (k : CoreIx) (u : UnitIx), s.on = true ∧ s.shaped = true ∧ NoHeldRearm s k u :=
  ⟨st 1 1, 0, 0, by decide +kernel⟩

theorem witness_StreamControlComplete_5 :
  ∃ (s : State) (k : CoreIx) (u : UnitIx) (v : Word), ∃ i, s.on = true ∧ s.shaped = true ∧ NoHeldRearm s k u ∧ v.toNat
    % 64 = 0 ∧ haltedAt s k u (bits v.toNat 22 0) = some i :=
  ⟨faulted 0, 0, 0, BitVec.ofNat 32 (tokenAddr (faulted 0) 0 0 0), 0, by decide +kernel⟩

theorem witness_StreamControlComplete_6 :
  ∃ (s : State) (k : CoreIx) (u : UnitIx) (v : Word), s.on = true ∧ s.shaped = true ∧ NoHeldRearm s k u ∧ ((v.toNat %
    64 ≠ 0 ∨ haltedAt s k u (bits v.toNat 22 0) = none)) :=
  ⟨faulted 0, 0, 0, 64, by decide +kernel⟩

theorem witness_ClusterControlComplete_1 :
  ∃ (s : State) (_c : ClusterIx), s.on = true :=
  ⟨{ svc with clusters := [(0, { tlb := [⟨1, 0, 1, 3⟩, ⟨2, 0, 1, 3⟩] })] }, 0, by decide +kernel⟩

theorem witness_ClusterControlComplete_2 :
  ∃ (s : State) (_c : ClusterIx) (_ctx : Fin 8), s.on = true :=
  ⟨{ svc with clusters := [(0, { tlb := [⟨1, 0, 1, 3⟩, ⟨2, 0, 1, 3⟩] })] }, 0, 1, by decide +kernel⟩

theorem witness_ClusterControlComplete_3 :
  ∃ (s : State) (_c : ClusterIx), s.on = true :=
  ⟨{ svc with clusters := [(0, { invalBusy := true })] }, 0, by decide +kernel⟩

theorem witness_ClusterControlComplete_4 :
  ∃ (s : State) (_c : ClusterIx) (_n : Fin 64), s.on = true :=
  ⟨{ svc with clusters := [(0, { digests := [(3, { absorbed := 5 }), (4, { absorbed := 6 })] })] }, 0, 3,
    by decide +kernel⟩

theorem witness_ClusterControlComplete_5 :
  ∃ (s : State) (c : ClusterIx) (_v : Word), s.on = true ∧ s.jobOwns c = false :=
  ⟨{ svc with mem := memOf [(0x81000000005, [1]), (0x81004000005, [1])], poison := [0x81000000000 / 64] }, 0,
    0xFFFFFFE8, by decide +kernel⟩

theorem witness_ClusterControlComplete_6 :
  ∃ (s : State) (c : ClusterIx) (_v : Word), s.on = true ∧ s.jobOwns c = true :=
  ⟨{ job with mem := memOf [(0x81000000005, [1])] }, 0, 16, by decide +kernel⟩

theorem witness_TurnedAwayAccessesComplete_1 :
  ∃ (s : State) (addr : BitVec 44) (off width : Nat) (_wr : Bool) (_val : DWord), s.on = true ∧ regionOf addr.toNat =
    .regs off ∧ (width ≠ 4 ∨ off % 4 ≠ 0) :=
  ⟨svc, 0xF0000000000, 0, 8, true, 0x1122334455667788, by decide +kernel⟩

theorem witness_TurnedAwayAccessesComplete_2 :
  ∃ (s : State) (addr : BitVec 44) (off _width : Nat) (_wr : Bool) (_val : DWord), s.on = true ∧ regionOf addr.toNat =
    .regs off ∧ off % 4 = 0 ∧ inAlmWindow off = false ∧ findReg off = none :=
  ⟨svc, 0xF00000FF000, 0xFF000, 4, false, 0, by decide +kernel⟩

theorem witness_TurnedAwayAccessesComplete_3 :
  ∃ (s : State) (addr : BitVec 44) (off _width : Nat) (_wr : Bool) (_val : DWord) (_r : RegRef), s.on = true ∧
    regionOf addr.toNat = .regs off :=
  ⟨svc, 0xF0000000000, 0, 4, false, 0, ⟨.mxeErr, 3, []⟩, by decide +kernel⟩

theorem witness_RegisterAccessesComplete_1 :
  ∃ (s : State) (addr : BitVec 44) (_v : Word) (off : Nat) (r : RegRef), s.on = true ∧ regionOf addr.toNat = .regs off
    ∧ off % 4 = 0 ∧ inAlmWindow off = false ∧ findReg off = some r ∧ writeActs r.id = false :=
  ⟨svc, BitVec.ofNat 44 (0xF0000000000 + regOff .mxeErr 3), 0xFFFFFFFF, regOff .mxeErr 3, ⟨.mxeErr, 3, []⟩,
    by decide +kernel⟩

theorem witness_RegisterAccessesComplete_2 :
  ∃ (s : State) (addr : BitVec 44) (off : Nat) (r : RegRef) (hi : RegId), s.on = true ∧ regionOf addr.toNat = .regs
    off ∧ off % 4 = 0 ∧ inAlmWindow off = false ∧ findReg off = some r ∧ hiOf r.id = some hi :=
  ⟨{ svc with snaps := [(regOff .mxeBusyLo 3, 5)], regs := [(regOff .mxeBusyLo 3, 7)] }, BitVec.ofNat 44
    (0xF0000000000 + regOff .mxeBusyLo 3), regOff .mxeBusyLo 3, ⟨.mxeBusyLo, 3, []⟩, .mxeBusyHi, by decide +kernel⟩

theorem witness_ConstellationStatusComplete_1 :
  ∃ (s : State) (id : Nat) (_d : ConsDesc) (_seq : Word) (l : List (List Byte)) (st : List Status), s.on = true ∧
    consMembers s id = some l.length ∧ st = l.map (fun r => statusOfCode (fieldAt r 0 1)) :=
  ⟨{ svc with plan := some { plan0 with constellations := [⟨3, 2, 0⟩] } }, 3, .tile (tileDesc 3 1 1), 9,
    [bytesOf 32 [], bytesOf 32 [(0, 1, 3)]], [.ok, statusOfCode 3], by decide +kernel⟩

theorem witness_ConstellationStatusComplete_2 :
  ∃ (s : State) (_id : Nat) (_d : ConsDesc) (_seq : Word) (l : List (Option (List Byte))), s.on = true ∧ none ∈ l :=
  ⟨svc, 3, .tile (tileDesc 3 1 1), 9, [some (bytesOf 32 []), none], by decide +kernel⟩

theorem witness_ShadowGroupsComplete_1 :
  ∃ (s : State) (c : ClusterIx), s.on = true ∧ s.clusterFallow c = false :=
  ⟨svc, 2, by decide +kernel⟩

theorem witness_ShadowGroupsComplete_2 :
  ∃ (s : State) (c : ClusterIx) (v : Bool), s.on = true ∧ (s.cluster c).autoSnap = some v :=
  ⟨{ svc with clusters := [(2, { autoSnap := some false })] }, 2, false, by decide +kernel⟩

theorem witness_ShadowGroupsComplete_3 :
  ∃ (s : State), s.on = true :=
  ⟨svc, by decide +kernel⟩

theorem witness_ShadowGroupsComplete_4 :
  ∃ (s : State) (v : Bool), s.on = true ∧ s.dev.ordSnap = some v :=
  ⟨{ svc with dev := { svc.dev with ordSnap := some true } }, true, by decide +kernel⟩

/-- The counter at a number of nanoseconds, with the last pulse a second before. -/
def pulse (now : Nat) : State := { svc with pst := { now, up := 10^11, lastPulse := some (now - 10^9), lastAccept := some 0 } }

theorem witness_PpsPulseComplete_1 :
  ∃ (s : State), s.on = true ∧ ppsGlitch s.pst = true :=
  ⟨{ svc with pst := { now := 998999999, up := 10^11, lastPulse := some 0 } }, by decide +kernel⟩

theorem witness_PpsPulseComplete_2 :
  ∃ (s : State), s.on = true ∧ ppsGlitch s.pst = false ∧ s.pst.armed = true :=
  ⟨{ svc with pst := { now := 10^12, up := 10^11, armed := true }, regs := [(regOff .pstSetSec, 77)] },
    by decide +kernel⟩

theorem witness_PpsPulseComplete_3 :
  ∃ (s : State), s.on = true ∧ ppsGlitch s.pst = false ∧ s.pst.armed = false ∧ (ppsOffset s.pst.now).natAbs < 1000 :=
  ⟨pulse (10^12 + 999), by decide +kernel⟩

theorem witness_PpsPulseComplete_4 :
  ∃ (s : State), s.on = true ∧ ppsGlitch s.pst = false ∧ s.pst.armed = false ∧ 1000 ≤ (ppsOffset s.pst.now).natAbs ∧
    s.pst.run.length = 2 ∧ ((∀ x ∈ s.pst.run, (x - ppsOffset s.pst.now).natAbs ≤ 1000)) :=
  ⟨let s := pulse (10^12 - 1000); { s with pst := { s.pst with run := [-1000, -2000] } }, by decide +kernel⟩

theorem witness_PpsPulseComplete_5 :
  ∃ (s : State), s.on = true ∧ ppsGlitch s.pst = false ∧ s.pst.armed = false ∧ 1000 ≤ (ppsOffset s.pst.now).natAbs ∧
    ((s.pst.run.length < 2 ∨ ∃ x ∈ s.pst.run, 1000 < (x - ppsOffset s.pst.now).natAbs)) :=
  ⟨let s := pulse (10^12 + 1000); { s with pst := { s.pst with run := [1000, 2001] } }, by decide +kernel⟩

theorem witness_PolestarAndAlmanacComplete_1 :
  ∃ (s : State), ∃ a, s.on = true ∧ s.pst.lastAccept = some a ∧ a + 1500000000 ≤ s.pst.now ∧ s.pst.state ≠ .holdover :=
  ⟨{ svc with pst := { now := 1500000000, lastAccept := some 0, state := .locked } }, 0, by decide +kernel⟩

theorem witness_PolestarAndAlmanacComplete_2 :
  ∃ (s : State), s.on = true :=
  ⟨svc, by decide +kernel⟩

theorem witness_PolestarAndAlmanacComplete_3 :
  ∃ (s : State), s.on = true :=
  ⟨svc, by decide +kernel⟩

theorem witness_PolestarAndAlmanacComplete_4 :
  ∃ (s : State), s.on = true ∧ s.pst.armed = true ∧ s.pst.armedAt + 1500000000 ≤ s.pst.up :=
  ⟨{ svc with pst := { now := 5, up := 1500000000, armed := true }, regs := [(regOff .pstSetSec, 77)] },
    by decide +kernel⟩

theorem witness_PolestarAndAlmanacComplete_5 :
  ∃ (s : State), s.on = true :=
  ⟨svc, by decide +kernel⟩

theorem witness_PolestarAndAlmanacComplete_6 :
  ∃ (s : State), s.on = true :=
  ⟨{ svc with alm := { ready := true, merges := [⟨99, 1, 0, 0, 3⟩, ⟨99, 2, 0, 0, 0⟩, ⟨100, 1, 0, 0, 2⟩] } },
    by decide +kernel⟩

theorem witness_PolestarAndAlmanacComplete_8 :
  ∃ (s : State) (a : BitVec 44) (_v : Word) (off : Nat), s.on = true ∧ regionOf a.toNat = .regs off ∧ inAlmWindow off
    = true ∧ s.alm.ready = true ∧ s.alm.stopped = false ∧ s.alm.merges = [] :=
  ⟨svc, 0xF0010100000, 7, 0x10100000, by decide +kernel⟩

theorem witness_PowerCommandsComplete_1 :
  ∃ (s : State) (mv : Int), s.on = true ∧ s.power.inputFail = false ∧ -500 ≤ mv ∧ mv < 36000 :=
  ⟨svc, 35999, by decide +kernel⟩

theorem witness_PowerCommandsComplete_2 :
  ∃ (s : State) (mv : Int), s.on = true ∧ s.power.inputFail = false ∧ 36000 ≤ mv ∧ mv ≤ 44000 :=
  ⟨svc, 44000, by decide +kernel⟩

theorem witness_PowerCommandsComplete_3 :
  ∃ (s : State) (mv : Int), s.on = true ∧ s.power.inputFail = false ∧ 44000 < mv ∧ mv ≤ 50000 :=
  ⟨{ svc with mem := [(5, 1)] }, 44001, by decide +kernel⟩

theorem witness_PowerCommandsComplete_4 :
  ∃ (s : State), s.on = true ∧ ((s.power.inputFail = true ∨ (∃ a, s.power.shutdownAt = some a ∧ a + 10000000 ≤
    s.pst.up))) :=
  ⟨{ svc with mem := [(5, 1)], power := { svc.power with shutdownAt := some (10^11 - 10^7) } }, by decide +kernel,
    Or.inr ⟨_, rfl, by decide⟩⟩

theorem witness_PowerCommandsComplete_5 :
  ∃ (s : State) (mv : Int) (_oc _phase : Bool), s.on = true ∧ -500 ≤ mv ∧ mv ≤ 50000 :=
  ⟨{ svc with power := { svc.power with ocWarn := true } }, 42001, true, true, by decide +kernel⟩

theorem witness_PowerCommandsComplete_6 :
  ∃ (s : State), s.on = true :=
  ⟨svc, by decide +kernel⟩

theorem witness_PowerCommandsComplete_7 :
  ∃ (s : State) (_k : UnitIx) (_mcause _mepc _mtval : DWord), s.on = true :=
  ⟨svc, 3, 2, 0x100, 7, by decide +kernel⟩

theorem witness_ClockAndTemperatureComplete_1 :
  ∃ (s : State) (_c : ClusterIx) (_v : Word), s.on = true :=
  ⟨svc, 15, 0xFFFFFFFD, by decide +kernel⟩

theorem witness_ClockAndTemperatureComplete_2 :
  ∃ (s : State) (_c : ClusterIx), s.on = true :=
  ⟨{ svc with aclk := [(2, { run := 3, cap := 5 })] }, 2, by decide +kernel⟩

theorem witness_ClockAndTemperatureComplete_3 :
  ∃ (s : State) (watts _ca : Nat), s.on = true ∧ capWatts s < watts ∧ ((∃ c, c < 16 ∧ (s.aclkOf c).cap < 7)) :=
  ⟨svc, capWatts svc + 1, 5, by decide +kernel, by decide +kernel, ⟨0, by decide, by decide +kernel⟩⟩

theorem witness_ClockAndTemperatureComplete_4 :
  ∃ (s : State) (watts _ca : Nat), s.on = true ∧ watts + 250 ≤ capWatts s ∧ 9 ≤ s.power.capTicks ∧ ((∃ c, c < 16 ∧ 0 <
    (s.aclkOf c).cap)) :=
  ⟨{ svc with aclk := [(2, { run := 3, cap := 5 })], power := { svc.power with capTicks := 9 } }, capWatts svc - 250,
    5, by decide +kernel, by decide +kernel, by decide +kernel, ⟨2, by decide, by decide +kernel⟩⟩

theorem witness_ClockAndTemperatureComplete_5 :
  ∃ (s : State) (watts _ca : Nat), s.on = true ∧ watts ≤ capWatts s ∧ ((capWatts s < watts + 250 ∨ s.power.capTicks <
    9)) :=
  ⟨svc, capWatts svc, 5, by decide +kernel⟩

theorem witness_ClockAndTemperatureComplete_6 :
  ∃ (s : State) (c : ClusterIx) (reading x : Int), s.on = true ∧ x = reading + calOffset s (16960 + 128 + 2 * c) ∧
    -640 ≤ x ∧ x ≤ 2400 :=
  ⟨svc, 3, 1840, 1840, by decide +kernel⟩

theorem witness_ClockAndTemperatureComplete_7 :
  ∃ (s : State) (c : ClusterIx), s.on = true ∧ ((∀ d ∈ neighbours c, (s.aclkOf d).temp = none)) :=
  ⟨{ svc with aclk := (List.range 16).map fun c => (c, { temp := none }) }, 3, by decide +kernel⟩

/-- The channels of stack 0 are mapped. -/
def chans : State :=
  { svc with dram := { svc.dram with channels := (List.range 16).map fun c => (c, { mapped := true, pending := true, hourCe := 100000 }) } }

theorem witness_DramChannelsAndRetirementComplete_1 :
  ∃ (s : State) (ch : ChannelIx), s.on = true ∧ chanRuns s ch = true ∧ (s.stack (ch.val / 16)).level ≠ .critical :=
  ⟨chans, 15, by decide +kernel⟩

theorem witness_DramChannelsAndRetirementComplete_2 :
  ∃ (s : State) (ch : ChannelIx) (found : SymErrs) (key a : Nat), s.on = true ∧ chanRuns s ch = true ∧
    key = ch * 2^25 + (s.chan ch).scrubPos ∧ a = lineAddr s ch (s.chan ch).scrubPos ∧ (s.chan ch).scrubPos < 2^25 ∧
    State.isDram a = true ∧ s.dramShut a = false ∧ s.lineKey a = key ∧ (if (s.chan ch).scrubPos =
    0 then s.fld .drmScrub (ch.val / 16) [] 7 0 else (s.chan ch).scrubPeriod) ≠ 0 ∧ symErrs found ≠ [] ∧
    rsDecode (symErrs found) = some (symErrs found) ∧
    s.dram.bad.contains key = false ∧ SMap.find s.dram.errs key = none :=
  ⟨chans, 15, [(66, 0x80)], 15 * 2^25, lineAddr chans 15 0, by decide +kernel⟩

theorem witness_DramChannelsAndRetirementComplete_7 :
  ∃ (s : State) (ch : ChannelIx) (upsets : List (Nat × SymErrs)), s.on = true ∧ chanRuns s ch = true ∧
    (s.stack (ch.val / 16)).level ≠ .critical ∧ (∀ e ∈ upsets, rsDecode (symErrs e.2) = some (symErrs e.2)) ∧
    (upsets.map Prod.fst).Nodup ∧
    ∀ e ∈ upsets, SMap.find s.dram.errs (ch * 2^25 + e.1) = none ∧ s.dram.bad.contains (ch * 2^25 + e.1) = false :=
  ⟨chans, 15, [(3, [(0, 1)]), (4, [(66, 0xFF)])], by decide +kernel⟩

theorem witness_DramChannelsAndRetirementComplete_8 :
  ∃ found : SymErrs, rsDecode (symErrs found) = none :=
  ⟨[(0, 1), (63, 0x80)], by decide +kernel⟩

/-- R204: data bytes with their check symbols are a word of the code. -/
theorem test_line_code :
    let b : List Byte := (List.range 64).map fun i => BitVec.ofNat 8 (7 * i + 3)
    let w := (b ++ rsChecks b).mapIdx fun i x => (i, x)
    rsSyndrome w 0 = 0 ∧ rsSyndrome w 1 = 0 ∧ rsSyndrome w 2 = 0 := by decide +kernel

/-- R204: any one erroneous symbol is corrected, here the first data byte, the last and a check symbol. -/
theorem test_one_symbol : [0, 63, 65].all (fun i => rsDecode [(i, 0x5A)] == some [(i, 0x5A)]) = true := by decide +kernel

theorem witness_DramChannelsAndRetirementComplete_3 :
  ∃ (s : State), s.on = true :=
  ⟨chans, by decide +kernel⟩

theorem witness_DramChannelsAndRetirementComplete_4 :
  ∃ (s : State) (ch : ChannelIx) (cause : FenceChannelCause), s.on = true ∧ s.dram.live.contains ch.val = true ∧
    (s.chan ch).fenced = false ∧ (cause = .rows → 8 ≤ recentRows s ch) ∧
    (mappedPages s).all (fun p => !pageOnChannel s p ch) = true :=
  ⟨chans, 15, .retries, by decide +kernel⟩

theorem witness_DramChannelsAndRetirementComplete_5 :
  ∃ (s : State) (_c : ClusterIx) (_b : BitVec 16), s.on = true :=
  ⟨{ chans with dev := { chans.dev with pend := { channels := 0xFFFF } } }, 0, 0x8001, by decide +kernel⟩

theorem witness_DramChannelsAndRetirementComplete_6 :
  ∃ (s : State) (r : UeRep) (rest : List UeRep) (a i : Nat), s.on = true ∧ s.wf = true ∧ s.dram.reports = r :: rest ∧
    r.channel < 256 ∧ r.kind = 1 ∧ (s.chan r.channel).fenced = false ∧ s.dramEncode r.channel (r.line * 64) = some a ∧
    pageRetired s (a / 65536) = false ∧ firstErased s (r.channel / 16) 4096 0 = some i :=
  ⟨{ chans with dram := { chans.dram with reports := [⟨0, 5, 1, 7⟩, ⟨1, 5, 1, 7⟩] } }, ⟨0, 5, 1, 7⟩, [⟨1, 5, 1, 7⟩], 320, 0,
    by decide +kernel⟩

theorem witness_StackHeatComplete_1 :
  ∃ (s : State) (st : ClusterIx) (readings : List (Option Int)) (x : Int), s.on = true ∧ readings.length = 4 ∧ ((∃ (k
    : Nat) (y : Int), readings[k]? = some (some y) ∧ x = y + calOffset s (16960 + 8 * st + 2 * k))) ∧ sensorValid x =
    true ∧ ((∀ (k : Nat) (y : Int), readings[k]? = some (some y) → sensorValid (y + calOffset s (16960 + 8 * st + 2 *
    k)) = true → y + calOffset s (16960 + 8 * st + 2 * k) ≤ x)) :=
  ⟨svc, 0, [some 1520, none, some (-5000), some 1519], 1520, by decide +kernel, by decide +kernel,
    ⟨0, 1520, by decide, by decide +kernel⟩, by decide +kernel,
    by intro k y h1 _; rcases k with _ | _ | _ | _ | k <;> simp at h1 <;> subst h1 <;> decide +kernel⟩

theorem witness_StackHeatComplete_2 :
  ∃ (s : State) (st : ClusterIx), s.on = true ∧ (s.stack st).level = .hot ∧ (s.stack st).lastStepAt + 10000000 ≤
    s.pst.up :=
  ⟨{ svc with dram := { svc.dram with perStack := [(3, { level := .hot, temp := some 1600, lastStepTemp := 1599, lastStepAt := 10^11 - 10^7 })] } },
    3, by decide +kernel⟩

theorem witness_StackHeatComplete_3 :
  ∃ (s : State) (c : ClusterIx), s.on = true ∧ (s.stack c).falling = true ∧ (s.stack c).lastFallAt + 100000000 ≤
    s.pst.up :=
  ⟨{ svc with aclk := [(3, { dram := 2 })], dram := { svc.dram with perStack := [(3, { falling := true })] } }, 3,
    by decide +kernel⟩

theorem witness_StackHeatComplete_4 :
  ∃ (s : State) (st : ClusterIx) (p : Nat), (∃ i, i < 16 ∧ pageOnChannel s p (16 * st + i) = true) ∧ s.on = true ∧
    (s.stack st).offline = true ∧ (s.stack st).below95.isSome = true ∧ p ∈ s.dram.stale ∧
    (∀ q ∈ s.dram.stale, mappers s q = []) :=
  ⟨{ svc with dram := { svc.dram with stale := [0], perStack := [(0, { offline := true, below95 := some 0 })] } }, 0, 0,
    ⟨0, by decide +kernel⟩, by decide +kernel⟩

theorem witness_AdmissionComplete_1 :
  ∃ (s : State) (q : Queued) (rest : List Queued) (p : PoolPlan), s.on = true ∧ s.plan.isSome = true ∧
    s.serving.running = false ∧ isScheduler s = true ∧ s.serving.slots = [] ∧ s.serving.queue = q :: rest ∧ q.home = none ∧
    s.insts = [] ∧ s.serving.adapters = [] ∧ planPool s q.req.pool = some p ∧ poolPaused s q.req.pool = false ∧ 0 < p.slots ∧
    (∀ pos ∈ needsOf s p q.req, reservationAt s p q.req pos ≤ kvPagesAt s pos) :=
  ⟨{ srv with serving := { queue := [{ req := req0 9, ran := 0, since := 0 }, { req := req0 10, ran := 0, since := 0 }] } },
    { req := req0 9, ran := 0, since := 0 }, [{ req := req0 10, ran := 0, since := 0 }], pool0, by decide +kernel⟩

theorem witness_AdmissionComplete_2 :
  ∃ (s : State), s.on = true ∧ allPaused s = true ∧ s.serving.running = false :=
  ⟨{ srv with nwt := { cutover := true }, serving := { queue := [{ req := req0 9, ran := 0, since := 0 }], slots := [(2, { slot0 8 with state := .ending })] } },
    by decide +kernel⟩

theorem witness_AdmissionComplete_3 :
  ∃ (s : State) (id : DWord) (q : Queued) (p : PoolPlan), s.on = true ∧ queuedReq s id = some q ∧ planPool s
    q.req.pool = some p ∧ p.admitMs * 10^6 ≤ admitRan s q :=
  ⟨{ srv with serving := { queue := [{ req := req0 9, ran := 0, since := 10^11 - 5 * 10^7 }] } }, 9, { req := req0 9, ran := 0, since := 10^11 - 5 * 10^7 }, pool0,
    by decide +kernel⟩

theorem witness_AdmissionComplete_4 :
  ∃ (s : State) (m : ModuleId) (_reason : Byte) (_time : DWord), s.on = true ∧ s.fenced.contains m.toNat = false :=
  ⟨{ srv with router := { slow := [2] } }, 4, 1, 0, by decide +kernel⟩

theorem witness_AdmissionComplete_5 :
  ∃ (s : State) (m : ModuleId) (_reason : Byte) (_time : DWord), s.on = true ∧ s.fenced.contains m.toNat = false :=
  ⟨{ srv with router := { slow := [2, 4] } }, 4, 1, 0, by decide +kernel⟩

theorem witness_AdmissionComplete_6 :
  ∃ (s : State) (_news : SheafNews), s.on = true ∧ s.plan.isSome = true ∧ s.serving.running = false ∧ isScheduler s = false :=
  ⟨{ mod1 with plan := some plan1 }, { step := 4, rows := [(2, 1)] }, by decide +kernel⟩

theorem witness_TokensAndStepEndComplete_1 :
  ∃ (s : State) (i : BitVec 14) (r : SampleRun) (x : Slot) (w : SampleRes), slotSample x r.logits = some w ∧ (∀ y, session? s x.req.session = some y → y.conn.isSome = true) ∧
    s.on = true ∧ slot? s i.toNat = some x ∧ s.serving.running = true ∧ homedHere s x = true ∧ x.samples = true ∧
    x.committed = false ∧ x.masked = false ∧ x.state ≠ .ending ∧ poolHeld s x.req.pool = false ∧ r.kvPoison = false ∧ r.poisoned = false :=
  ⟨{ srv with serving := { running := true, step := 6, slots := [(2, slot0 8), (5, slot0 9)] } }, 2, ⟨[some 0x3F800000, none, some 0x40400000], false, false, [], [], 0⟩,
    slot0 8, _, (Option.some_get (by decide +kernel)).symm, by decide +kernel⟩

theorem witness_TokensAndStepEndComplete_2 :
  ∃ (s : State) (i : BitVec 14) (r : SampleRun) (x : Slot), (∀ y, session? s x.req.session = some y → y.conn.isSome = true) ∧
    s.on = true ∧ slot? s i.toNat = some x ∧ s.serving.running = true ∧ homedHere s x = true ∧ x.samples = true ∧
    x.committed = false ∧ x.masked = false ∧ x.state ≠ .ending ∧ poolHeld s x.req.pool = false ∧ r.kvPoison = true :=
  ⟨{ srv with serving := { running := true, step := 6, slots := [(2, slot0 8), (5, slot0 9)] } }, 2, ⟨[some 0x3F800000, none, some 0x40400000], false, true, [], [], 0⟩, slot0 8,
    by decide +kernel⟩

theorem witness_TokensAndStepEndComplete_3 :
  ∃ (s : State), s.on = true ∧ s.serving.running = true ∧ (∀ x ∈ s.serving.slots, owesToken s x.2 = false) ∧ (∀ x ∈
    s.insts, x.2.hold = none) :=
  ⟨{ srv with serving := { running := true, step := 6, slots := [(2, { slot0 8 with committed := true })] } },
    by decide +kernel⟩

theorem witness_TokensAndStepEndComplete_4 :
  ∃ (s : State) (i : BitVec 14) (x : Slot), s.on = true ∧ slot? s i.toNat = some x ∧ x.state ≠ .ending :=
  ⟨{ srv with serving := { running := true, slots := [(2, slot0 8)] } }, 2, slot0 8, by decide +kernel⟩

theorem witness_TokensAndStepEndComplete_5 :
  ∃ (s : State) (i : BitVec 14) (r : SampleRun) (x : Slot), (∀ y, session? s x.req.session = some y → y.conn.isSome = true) ∧
    s.on = true ∧ slot? s i.toNat = some x ∧ s.serving.running = true ∧ homedHere s x = true ∧ x.samples = true ∧
    x.committed = false ∧ x.masked = false ∧ x.state ≠ .ending ∧ poolHeld s x.req.pool = false ∧ r.kvPoison = false ∧ r.poisoned = true :=
  ⟨{ srv with serving := { running := true, step := 6, slots := [(2, slot0 8), (5, slot0 9)] } }, 2, ⟨[some 0x3F800000, none, some 0x40400000], true, false, [], [], 0⟩, slot0 8,
    by decide +kernel⟩

theorem witness_WeightPoisonAndScrubComplete_1 :
  ∃ (s : State) (i p : Nat) (pages : List Nat) (adapters : List AdapterPoison), s.on = true ∧ (planInst s i).isSome = true ∧
    pages ≠ [] ∧ (∀ a ∈ adapters, a.clean = true) ∧ pages = [p] ∧ mappers s p = [] :=
  ⟨{ srv with mem := [(65536 * 9, 1)], poison := [1024 * 9] }, 0, 9, [9], [⟨6, 2, true⟩], by decide +kernel⟩

theorem witness_WeightPoisonAndScrubComplete_2 :
  ∃ (s : State) (i : Nat) (h : WeightHold) (refills : List (Nat × List Byte)), s.on = true ∧ (inst s i).hold = some h ∧
    (∀ p ∈ h.pages, ∃ e ∈ refills, e.1 = p) :=
  ⟨{ srv with insts := [(0, { hold := some { at_ := 5, pages := [9] } })], serving := { running := true, slots := [(2, slot0 8)] } }, 0,
    { at_ := 5, pages := [9] }, [(9, [])], by decide +kernel⟩

theorem witness_WeightPoisonAndScrubComplete_6 :
  ∃ (s : State) (i : Nat) (h : WeightHold) (refills : List (Nat × List Byte)) (p : Nat), s.on = true ∧
    (inst s i).hold = some h ∧ p ∈ h.pages ∧ (∀ e ∈ refills, e.1 ≠ p) :=
  ⟨{ srv with insts := [(0, { hold := some { at_ := 5, pages := [9, 11] } })] }, 0, { at_ := 5, pages := [9, 11] }, [(9, [])], 11,
    by decide +kernel⟩

theorem witness_WeightPoisonAndScrubComplete_3 :
  ∃ (s : State) (i : Nat), ∃ h, s.on = true ∧ (inst s i).hold = some h ∧ (h.pages ≠ [] ∨ h.adapters = []) ∧ h.at_ + 5 * 10^9 ≤ s.pst.up :=
  ⟨{ srv with insts := [(0, { hold := some { at_ := 10^11 - 5 * 10^9, pages := [9] } })], serving := { running := true, slots := [(2, slot0 8)], queue := [{ req := req0 9, ran := 0, since := 0 }] } },
    0, { at_ := 10^11 - 5 * 10^9, pages := [9] }, by decide +kernel⟩

theorem witness_WeightPoisonAndScrubComplete_4 :
  ∃ (s : State) (i tensor : Nat) (b : List Byte) (v : Version) (e : VerTensor), s.on = true ∧ s.fld .supWsScrub 0 []
    15 0 ≠ 0 ∧ ownShard s tensor = none ∧ (inst s i).current = some v ∧ v.tensors.find? (fun x => x.tensor = tensor) =
    some e ∧ some (fingerprint b) = e.shardFps[s.dev.position]? :=
  ⟨{ srv with insts := [(0, { current := some (verT [fingerprint [1, 2]]) })] }, 0, 4, [1, 2], verT [fingerprint [1,
    2]], ⟨4, 0, 0, [fingerprint [1, 2]], 0⟩, by decide +kernel, by decide +kernel, by decide +kernel, rfl, rfl, rfl⟩

theorem witness_WeightPoisonAndScrubComplete_5 :
  ∃ (s : State) (i tensor : Nat) (b : List Byte) (v : Version) (e : VerTensor), s.on = true ∧ s.fld .supWsScrub 0 []
    15 0 ≠ 0 ∧ ownShard s tensor = none ∧ (inst s i).current = some v ∧ v.tensors.find? (fun x => x.tensor = tensor) =
    some e ∧ some (fingerprint b) ≠ e.shardFps[s.dev.position]? :=
  ⟨{ srv with insts := [(0, { current := some (verT []) })] }, 0, 4, [1, 2], verT [], ⟨4, 0, 0, [], 0⟩,
    by decide +kernel, by decide +kernel, by decide +kernel, by decide +kernel, by decide +kernel, by simp⟩

/-- The shard of tensor 3 with every master element 1.0. -/
def shard0 : Shard :=
  { tensor := 3, rule := 0, mats := 1, rows := 8, cols := 8, lagging := true, settled := 9
    halves := [{ master := List.replicate 64 0x3F800000, mom := List.replicate 64 0 },
      { master := List.replicate 64 0x3F800000, mom := List.replicate 64 0 }] }

def trn : State := { srv with thresher := { owners := [⟨3, 0, 0, 64⟩], shards := [shard0] } }

def turn0 : Turn := ⟨0, 10^11 - 10^8, 0, false, false, [], [], 0, 0, 0, 0⟩

def fp2 : DWord := fingerprint [1, 2]

/-- The module at position 1, which waits for its shard of tensor 3. -/
def recv : State := { srv with dev := { srv.dev with module := some 1, position := 1 }, insts := [(0, { turn := some turn0, current := some (verT []), phase := .turning })] }

theorem witness_TurnCommandsComplete_1 :
  ∃ (s : State) (i : Nat) (_rooms : List RoomReport) (p : InstancePlan), s.on = true ∧ planInst s i = some p ∧ (cycle?
    s i).isSome = true ∧ (inst s i).turn = none ∧ (inst s i).commit = none ∧ (((inst s i).retry = true ∨ phaseOf s i =
    .learning ∧ learned s p = true)) ∧ trainedTensors p ≠ [] ∧ curVer (inst s i) + 1 ≠ 0xFFFFFFFF#32 ∧ ((∀ y ∈
    s.thresher.shards, (amaxOf y.half.master).isSome = true)) :=
  ⟨{ trn with insts := [(0, { phase := .learning, current := some (verT []) })] }, 0, [⟨1, 5, 9⟩], inst0,
    by decide +kernel⟩

theorem witness_TurnCommandsComplete_2 :
  ∃ (s : State) (i : Nat) (p : InstancePlan), s.on = true ∧ planInst s i = some p ∧ (trainedTensors p) = [] ∧ (cycle?
    s i).isSome = true ∧ (inst s i).turn = none ∧ (inst s i).commit = none ∧ (inst s i).retry = true :=
  ⟨{ srv with plan := some { plan1 with instances := [{ inst0 with tensors := [] }] }, insts := [(0, { retry := true, phase := .turning })] },
    0, { inst0 with tensors := [] }, by decide +kernel⟩

theorem witness_TurnCommandsComplete_3 :
  ∃ (s : State) (i tensor : Nat) (pos : Fin 8) (info : ShardInfo) (data _again : List Byte) (p : InstancePlan) (u :
    Turn) (fp : DWord), s.on = true ∧ planInst s i = some p ∧ (inst s i).turn = some u ∧ pos.val = s.dev.position ∧
    u.have_.contains tensor = false ∧ ((∃ x ∈ trainedTensors p, x.id = tensor)) ∧ info.shardFps[pos.val]? = some fp ∧
    fingerprint data = fp :=
  ⟨recv, 0, 3, 1, ⟨0x3F800000, 7, [0, fp2]⟩, [1, 2], [], inst0, turn0, fp2, by decide +kernel, by decide +kernel,
    by decide +kernel, by decide +kernel, by decide +kernel, by decide +kernel, rfl, rfl⟩

theorem witness_TurnCommandsComplete_4 :
  ∃ (s : State) (i tensor : Nat) (pos : Fin 8) (info : ShardInfo) (data again : List Byte) (p : InstancePlan) (u :
    Turn) (fp : DWord), s.on = true ∧ planInst s i = some p ∧ (inst s i).turn = some u ∧ pos.val = s.dev.position ∧
    u.have_.contains tensor = false ∧ ((∃ x ∈ trainedTensors p, x.id = tensor)) ∧ info.shardFps[pos.val]? = some fp ∧
    fingerprint data ≠ fp ∧ fingerprint again = fp :=
  ⟨recv, 0, 3, 1, ⟨0x3F800000, 7, [0, fp2]⟩, [], [1, 2], inst0, turn0, fp2, by decide +kernel, by decide +kernel,
    by decide +kernel, by decide +kernel, by decide +kernel, by decide +kernel, rfl, by decide +kernel, rfl⟩

theorem witness_TurnCommandsComplete_5 :
  ∃ (s : State) (i tensor : Nat) (pos : Fin 8) (info : ShardInfo) (data again : List Byte) (p : InstancePlan) (u :
    Turn) (fp : DWord), s.on = true ∧ planInst s i = some p ∧ (inst s i).turn = some u ∧ pos.val = s.dev.position ∧
    u.have_.contains tensor = false ∧ ((∃ x ∈ trainedTensors p, x.id = tensor)) ∧ info.shardFps[pos.val]? = some fp ∧
    fingerprint data ≠ fp ∧ fingerprint again ≠ fp ∧ u.forced = false :=
  ⟨recv, 0, 3, 1, ⟨0x3F800000, 7, [0, fp2]⟩, [], [3], inst0, turn0, fp2, by decide +kernel, by decide +kernel,
    by decide +kernel, by decide +kernel, by decide +kernel, by decide +kernel, rfl, by decide +kernel⟩

theorem witness_TurnCommandsComplete_6 :
  ∃ (s : State) (i : Nat) (p : InstancePlan) (u : Turn), s.on = true ∧ planInst s i = some p ∧ (inst s i).turn = some
    u ∧ turnReady s i u = true :=
  ⟨{ trn with insts := [(0, { turn := some { turn0 with table := [⟨3, 0, 0, [], 0⟩], have_ := [3] }, current := some (verT []) })] },
    0, inst0, { turn0 with table := [⟨3, 0, 0, [], 0⟩], have_ := [3] }, by decide +kernel⟩

theorem witness_TurnCommandsComplete_7 :
  ∃ (s : State) (i : Nat) (u : Turn), s.on = true ∧ (inst s i).turn = some u ∧ s.nwt.eclipse = .none ∧ u.upAt +
    u.stood + turnMs s i * 10^6 ≤ s.pst.up ∧ u.forced = false :=
  ⟨{ recv with insts := [(0, { turn := some { turn0 with stood := 5 * 10^7, upAt := 10^11 - 15 * 10^7 } })], plan := some { plan1 with instances := [{ inst0 with cycle := some (bytesOf 64 [(10, 2, 100)]) }] } },
    0, { turn0 with stood := 5 * 10^7, upAt := 10^11 - 15 * 10^7 }, by decide +kernel⟩

def coll0 : CollPlan := ⟨5, 0, [{ module := 0, agent := 0 }, { module := 1, agent := 0 }], true, 0, 0, some 0, 0, []⟩
def coll1 : CollPlan := ⟨6, 0, [{ module := 0, agent := 0 }, { module := 1, agent := 0 }], false, 30, 0, some 0, 0, []⟩

/-- An ALLREDUCE of `n` FP32 elements as a member joins it. -/
def joinDesc (op flags coll i member n : Nat) : List Byte :=
  bytesOf 64 [(0, 1, op), (1, 1, flags), (3, 1, 1), (4, 2, coll), (8, 4, i), (16, 8, 0x1000), (24, 8, 0x1040), (36, 4, n), (40, 4, n),
    (44, 4, n), (62, 2, member)]

/-- Core 0 has one join in slot 0, and its data stands at S0. -/
def jn (desc : List Byte) (c : Coll) : State :=
  { srv with plan := some { plan1 with collectives := [coll0, coll1] }, router := { colls := [(5, c), (6, c)] }
             regs := SMap.set [] (regOff .xltCtrl 0 []) 1, clusters := [(0, { tlb := [⟨0, 0, 1, 7⟩] })], tallies := [(1016, 1)], mem := memOf [(0x1000, leBytes 4 0x3F800000 ++ leBytes 4 0x40000000), (joinArea 0, desc)] }

def jd (s : State) : State × List Byte × List Nat × List Byte × Option Status := joinData (tookJoin s 0) 0 (joinD (nextJoin s 0))

/-- A member's data of instance 3. -/
def con (op coll member n : Nat) : Contrib := ⟨member, joinDesc op 1 coll 3 member n, leBytes 4 0x3F800000 ++ leBytes 4 0x40000000, [], [], none⟩

def open3 (cur : List Contrib) : Coll := { isOpen := true, started := true, inst := 3, openAt := 10^11 - 3 * 10^7, cur := cur }

theorem witness_JoinsComplete_1 :
  ∃ op, ∃ (s : State) (k : CoreIx) (p : CollPlan) (u : State) (b table : List Byte) (bad : List Nat), op ∈
    joinCommands ∧ JoinWaits s k ∧ (joinD (nextJoin s k)).opcode = op.1 ∧ joinCheck s k (joinD (nextJoin s k)) = none ∧
    planColl s (joinD (nextJoin s k)).coll = some p ∧ joinHeld s (joinD (nextJoin s k)) = false ∧ tierPage s k (joinD
    (nextJoin s k)).src (joinBytes (joinD (nextJoin s k))) = none ∧ joinData (tookJoin s k) k (joinD (nextJoin s k)) =
    (u, b, bad, table, none) ∧ ((∀ x ∈ (collOf s p.id).cur, x.member ≠ (joinD (nextJoin s k)).member)) ∧ ((∀ x ∈ (collOf
    s p.id).ahead, x.member ≠ (joinD (nextJoin s k)).member)) ∧ instAhead (collOf s p.id) (joinD (nextJoin s k)).inst =
    0 :=
  ⟨(1, .allreduce), jn (joinDesc 1 0 5 0 0 2) {}, 0, coll0, (jd (jn (joinDesc 1 0 5 0 0 2) {})).1, leBytes 4
    0x3F800000 ++ leBytes 4 0x40000000, [], [], by simp [joinCommands], by decide +kernel⟩

theorem witness_JoinsComplete_2 :
  ∃ op, ∃ (s : State) (k : CoreIx) (p : CollPlan) (u : State) (b table : List Byte) (bad : List Nat), op ∈
    joinCommands ∧ JoinWaits s k ∧ (joinD (nextJoin s k)).opcode = op.1 ∧ joinCheck s k (joinD (nextJoin s k)) = none ∧
    planColl s (joinD (nextJoin s k)).coll = some p ∧ joinHeld s (joinD (nextJoin s k)) = false ∧ tierPage s k (joinD
    (nextJoin s k)).src (joinBytes (joinD (nextJoin s k))) = none ∧ joinData (tookJoin s k) k (joinD (nextJoin s k)) =
    (u, b, bad, table, none) ∧ ((∀ x ∈ (collOf s p.id).cur, x.member ≠ (joinD (nextJoin s k)).member)) ∧ ((∀ x ∈ (collOf
    s p.id).ahead, x.member ≠ (joinD (nextJoin s k)).member)) ∧ instAhead (collOf s p.id) (joinD (nextJoin s k)).inst =
    1 :=
  ⟨(1, .allreduce), jn (joinDesc 1 0 5 4 0 2) (open3 []), 0, coll0, (jd (jn (joinDesc 1 0 5 4 0 2) (open3 []))).1,
    leBytes 4 0x3F800000 ++ leBytes 4 0x40000000, [], [], by simp [joinCommands], by decide +kernel⟩

theorem witness_JoinsComplete_3 :
  ∃ op, ∃ (s : State) (k : CoreIx), ∃ st, ∃ detail, op ∈ joinCommands ∧ JoinWaits s k ∧ (joinD (nextJoin s k)).opcode
    = op.1 ∧ joinCheck s k (joinD (nextJoin s k)) = some (st, detail) ∧ detail < 256 :=
  ⟨(1, .allreduce), jn (joinDesc 1 0 7 4 0 2) (open3 []), 0, .outOfRange, 1, by simp [joinCommands],
    by decide +kernel⟩

theorem witness_InstanceCloseComplete_1 :
  ∃ (s : State) (c : BitVec 12) (p : CollPlan), ∃ h, s.on = true ∧ planColl s c.toNat = some p ∧ InstanceAgrees s p h
    ∧ missing p (collOf s p.id) (fun _ => true) = [] :=
  ⟨jn [] (open3 [con 1 5 0 2, con 1 5 1 2]), 5, coll0, con 1 5 0 2, by decide +kernel⟩

theorem witness_InstanceCloseComplete_2 :
  ∃ (s : State) (c : BitVec 12) (p : CollPlan), ∃ h, s.on = true ∧ planColl s c.toNat = some p ∧ InstanceAgrees s p h
    ∧ p.step = false ∧ isTervar s p = false ∧ missing p (collOf s p.id) (fun _ => true) ≠ [] ∧ (collOf s p.id).openAt +
    deadlineOf s p (collOf s p.id) ≤ s.pst.up :=
  ⟨jn [] (open3 [con 1 6 0 2]), 6, coll1, con 1 6 0 2, by decide +kernel⟩

theorem witness_InstanceCloseComplete_3 :
  ∃ (s : State) (c : BitVec 12) (p : CollPlan) (i : Word) (j : RemoteJoin), s.on = true ∧ planColl s c.toNat = some p
    ∧ p.step = true ∧ isTervar s p = false ∧ (joinD j.desc).inst = i ∧ memberFenced s p j.member = false ∧ instAhead
    (collOf s p.id) i = -1 ∧ ((∀ y ∈ (collOf s p.id).gleaned, y.member ≠ j.member)) :=
  ⟨jn [] (open3 [con 1 5 0 2]), 5, coll0, 2, ⟨1, joinDesc 1 1 5 2 1 2, [1], [], []⟩, by decide +kernel⟩

theorem witness_InstanceCloseComplete_4 :
  ∃ (s : State) (c : BitVec 12) (p : CollPlan) (i : Word) (j : RemoteJoin), s.on = true ∧ planColl s c.toNat = some p
    ∧ p.step = true ∧ isTervar s p = false ∧ (joinD j.desc).inst = i ∧ memberFenced s p j.member = false ∧ instAhead
    (collOf s p.id) i < -1 :=
  ⟨jn [] (open3 [con 1 5 0 2]), 5, coll0, 1, ⟨1, joinDesc 1 1 5 1 1 2, [1], [], []⟩, by decide +kernel⟩

theorem witness_OrderedReductionIgnoresArrivalOrder_1 :
  ∃ (d : JoinD) (_ms : List (List Nat)) (_gleaned cur cur' : List Contrib) (_i : Nat), isReduction d.opcode = true ∧ cur.Perm cur'
    ∧ (cur.map (·.member)).Nodup :=
  ⟨joinD (joinDesc 1 1 5 3 0 2), [[], []], [], [con 1 5 0 2, con 1 5 1 2], [con 1 5 1 2, con 1 5 0 2], 0, by decide +kernel,
    List.Perm.swap _ _ _, by decide +kernel⟩

/-- R84: 2^24, with 1 and 1 in a nested constellation, gives 2^24 + 2; the flat tree rounds both away. -/
theorem test_nested_reduction :
    let v := fun w => fp32.decode w
    (nestSum 1 [([], v 0x4B800000), ([0], v 0x3F800000), ([0], v 0x3F800000)]).enc fp32 = 0x4B800001
      ∧ (nestSum 0 [([], v 0x4B800000), ([], v 0x3F800000), ([], v 0x3F800000)]).enc fp32 = 0x4B800000 := by decide +kernel

theorem witness_ShardUpdateAndFlipComplete_1 :
  ∃ (s : State) (tensor : Nat) (x : Shard) (t : Nat) (g : Grad), s.on = true ∧ ownShard s tensor = some x ∧ x.upd =
    none ∧ s.fld .thrCtrl 0 [] 0 0 = 1 ∧ inTurn s tensor = false ∧ lowest (x.grads.filterMap fun g => g.map (·.step)) = some t ∧ x.grad t = some g :=
  ⟨thr shard1, 3, shard1, 8, grad8, by decide +kernel⟩

theorem witness_ShardUpdateAndFlipComplete_2 :
  ∃ (s : State) (tensor : Nat) (x : Shard) (u : Upd) (fp : DWord), s.on = true ∧ ownShard s tensor = some x ∧ x.upd =
    some u ∧ u.next = some fp ∧ s.fld .thrCtrl 0 [] 1 1 = 0 ∧ x.poison = false ∧ flipWaits s x u = false :=
  ⟨thr { shard1 with upd := some { upd8 with next := some 5, waitOver := true } }, 3,
    { shard1 with upd := some { upd8 with next := some 5, waitOver := true } },
    { upd8 with next := some 5, waitOver := true }, 5, by decide +kernel⟩

theorem witness_ThresherCommandsComplete_1 :
  ∃ (s : State) (p : ThresherPlan), s.on = true ∧ thresherPlan s = some p ∧ updCores p ≠ 0 ∧ s.thresher.held = false ∧
    State.atLeast (s.tally p.rsv) (BitVec.ofNat 32 ((s.thresher.windows + 1) * updCores p)) = true :=
  ⟨{ thr shard1 with thresher := { shards := [shard1], windows := 1 } }, thrPlan, by decide +kernel⟩

theorem witness_ThresherCommandsComplete_2 :
  ∃ (s : State) (owner : ModuleId) (j : JournalMsg), s.on = true ∧ buddyOf s = some owner.toNat ∧ s.fenced.contains
    owner.toNat = false ∧ headerGood j.header = true ∧ j.image.length = fieldAt j.header 24 8 ∧ (fingerprint
    j.image).toNat = fieldAt j.header 32 8 ∧ ((s.ownId ≠ some owner.toNat ∨ s.nwt.takeovers = [])) :=
  ⟨thr shard1, 4, ⟨jh, [1, 2, 3, 4], []⟩, by decide +kernel⟩

theorem witness_ThresherCommandsComplete_3 :
  ∃ (s : State) (tensor : Nat) (step : DWord) (x : Shard), s.on = true ∧ ownShard s tensor = some x ∧ ((∃ e ∈ x.sent,
    e.step = step.toNat ∧ e.acked = false)) :=
  ⟨thr { shard1 with sent := [⟨7, false⟩, ⟨8, false⟩] }, 3, 8, { shard1 with sent := [⟨7, false⟩, ⟨8, false⟩] },
    by decide +kernel⟩

theorem witness_ThresherCommandsComplete_4 :
  ∃ (s : State) (tensor : Nat) (p : ThresherPlan) (x : Shard) (u : Upd), s.on = true ∧ thresherPlan s = some p ∧
    ownShard s tensor = some x ∧ x.upd = some u ∧ u.sentAt + p.jrnlWaitMs * 10^6 ≤ s.pst.up :=
  ⟨thr { shard1 with upd := some upd8 }, 3, thrPlan, { shard1 with upd := some upd8 }, upd8, by decide +kernel⟩

theorem witness_ThresherCommandsComplete_5 :
  ∃ (s : State) (tensor : Nat) (x : Shard) (u : Upd), s.on = true ∧ ownShard s tensor = some x ∧ x.upd = some u ∧
    u.redos < 2 ∧ (x.grad u.step).any (·.poison) = false :=
  ⟨thr { shard1 with upd := some { upd8 with redos := 1 } }, 3, { shard1 with upd := some { upd8 with redos := 1 } },
    { upd8 with redos := 1 }, by decide +kernel⟩

theorem witness_ThresherCommandsComplete_6 :
  ∃ (s : State) (tensor : Nat) (x : Shard) (u : Upd) (cause : RedoCause), s.on = true ∧ ownShard s tensor = some x ∧ x.upd = some u ∧ 2 ≤
    u.redos ∧ (∀ k, cause ≠ .memberFault k) :=
  ⟨thr { shard1 with upd := some { upd8 with redos := 2 } }, 3, { shard1 with upd := some { upd8 with redos := 2 } },
    { upd8 with redos := 2 }, .reset, by decide +kernel, by decide +kernel, by decide +kernel, by decide +kernel, by simp⟩

theorem witness_ThresherCommandsComplete_7 :
  ∃ (s : State) (_b : Bool), s.on = true :=
  ⟨thr shard1, true, by decide +kernel⟩

theorem witness_ThresherCommandsComplete_8 :
  ∃ (s : State) (_b : Bool), s.on = true :=
  ⟨thr shard1, false, by decide +kernel⟩

theorem witness_ThresherCommandsComplete_9 :
  ∃ (s : State) (tensor : Nat) (x : Shard) (u : Upd) (k : CoreIx), s.on = true ∧ ownShard s tensor = some x ∧ x.upd =
    some u ∧ s.thresher.held = true ∧ matrixRule (shardRule s x) = true ∧ otherMember s k = true :=
  ⟨ortho1, 3, { shard1 with upd := some upd8 }, upd8, 1, by decide +kernel⟩

/-- R379, R417: core 1 fails while core 0 is a member of the constellation too: it is marked pending, and nothing is
redone. -/
theorem test_member_fault :
    gives (exec (.updateRedo 3 (.memberFault 1)) ortho1) (fun t => t.dev.pend.cores == 2#128 && t.thresher == ortho1.thresher)
      = true := by decide +kernel

/-- R365: EPOCH lies in bytes 16 to 19, STEP in 24 to 31, and CHECK in 56 to 59 is the CRC-32C of bytes 0 to 55. -/
theorem test_shard_record :
    (shardRecord { shard1 with epoch := 3, step := 8 }).length = 64 ∧ fieldAt (shardRecord { shard1 with epoch := 3 }) 16 4 = 3
      ∧ fieldAt (shardRecord { shard1 with step := 8 }) 24 8 = 8
      ∧ fieldAt (shardRecord shard1) 56 4 = crc32c ((shardRecord shard1).take 56) := by decide +kernel

theorem witness_RiskEclipseAndHandoverComplete_1 :
  ∃ (s : State), s.on = true ∧ firmwareRuns s = true :=
  ⟨{ mod1 with nwt := { linkTimes := [10^11 - 10^9, 10^11 - 10^8] } }, by decide +kernel⟩

theorem witness_RiskEclipseAndHandoverComplete_2 :
  ∃ (s : State) (m : ModuleId) (_r : Byte) (p : Plan), s.on = true ∧ s.plan = some p ∧ isCoordinator s = true ∧ m ∈
    p.modules ∧ s.fenced.contains m.toNat = false :=
  ⟨job, 1, 200, plan0, by decide +kernel⟩

theorem witness_RiskEclipseAndHandoverComplete_3 :
  ∃ (s : State) (m : ModuleId) (_r : Byte) (p : Plan), s.on = true ∧ s.plan = some p ∧ isCoordinator s = false ∧
    m.toNat / 8 = s.dev.sheaf :=
  ⟨mod1, 2, 200, plan0, by decide +kernel⟩

theorem witness_RiskEclipseAndHandoverComplete_4 :
  ∃ (s : State), s.on = true ∧ s.plan.isSome = true ∧ ownJoinOpen s = false ∧ s.nwt.eclipse = .quiesce ∧ s.dev.mode =
    .service :=
  ⟨{ thr1 with nwt := { eclipse := .quiesce } }, by decide +kernel⟩

theorem witness_RiskEclipseAndHandoverComplete_5 :
  ∃ (s : State) (_bytes : Nat), s.on = true ∧ s.nwt.eclipse = .copy ∧ s.dev.mode = .eclipse :=
  ⟨{ thr1 with nwt := { eclipse := .copy, e0 := 5 }, dev := { thr1.dev with mode := .eclipse } }, 4096,
    by decide +kernel⟩

theorem witness_RiskEclipseAndHandoverComplete_6 :
  ∃ (s : State) (p : Plan) (a : Nat), s.on = true ∧ s.plan = some p ∧ isCoordinator s = true ∧ s.nwt.lastEclipse =
    some a ∧ a + 3600 * 10^9 ≤ s.pst.up ∧ s.nwt.eclipse = .none ∧ ((∃ m ∈ p.modules, (survival s).secureAt ≤ sheafRisk s
    (m.toNat / 8))) :=
  ⟨{ job with nwt := { lastEclipse := some 0, risks := [(1, 200)] }, pst := { up := 4000 * 10^9 } }, plan0, 0,
    by decide +kernel, by decide +kernel, by decide +kernel, by decide +kernel, by decide +kernel, by decide +kernel,
    ⟨0, by decide +kernel, by decide +kernel⟩⟩

theorem witness_RiskEclipseAndHandoverComplete_7 :
  ∃ (s : State) (_bytes : Nat), s.on = true ∧ s.nwt.handover = true ∧ s.dev.mode = .drain ∧ reserveUsable s = true ∧
    s.nwt.eclipse = .none ∧ s.serving.running = false ∧ ownJoinOpen s = false ∧ ((∀ x ∈ s.insts, x.2.phase ≠ .turning ∧
    x.2.nextPhase ≠ some .turning)) :=
  ⟨{ withReserve job with nwt := { handover := true }, dev := { job.dev with mode := .drain }, service := svc7, insts := [(0, {})] },
    4096, by decide +kernel⟩

theorem witness_RiskEclipseAndHandoverComplete_8 :
  ∃ (s : State) (_bytes p : Nat), s.on = true ∧ s.nwt.handover = false ∧ s.dev.position = 8 ∧ s.ownId = none ∧
    s.dev.mode = .service ∧ (List.range 8).find? (fun g => linkRuns (s.link g) && (s.link g).hbState == 5#8) = some p :=
  ⟨reserve, 4096, 2, by decide +kernel⟩

theorem witness_RiskEclipseAndHandoverComplete_9 :
  ∃ (s : State), s.on = true ∧ anyDrive s = true :=
  ⟨{ thr1 with pci := [(0, { drive := [true, false] })], nwt := { nvmeCopy := [(3, copy0)] } }, by decide +kernel⟩

theorem witness_HeartbeatsAndFencingComplete_1 :
  ∃ (s : State), s.on = true ∧ firmwareRuns s = true :=
  ⟨{ job with links := [(1, lnk 0), (4, lnk 0)] }, by decide +kernel⟩

theorem witness_HeartbeatsAndFencingComplete_2 :
  ∃ (s : State), s.on = true ∧ isArbiter s = true ∧ s.plan.isSome = true ∧ firmwareRuns s = true :=
  ⟨job, by decide +kernel⟩

theorem witness_HeartbeatsAndFencingComplete_3 :
  ∃ (s : State) (g : PortIx), s.on = true ∧ (s.link g).state ≠ .down ∧ (s.link g).state ≠ .fenced ∧ (s.link
    g).hbAt.getD (s.link g).trainedAt + 1100000 ≤ s.pst.up ∧ (s.link g).hbMiss ≠ 7 :=
  ⟨{ job with links := [(1, lnk 0), (4, lnk 6)] }, 4, by decide +kernel⟩

theorem witness_HeartbeatsAndFencingComplete_4 :
  ∃ (s : State) (g : PortIx), ∃ p, s.on = true ∧ (s.link g).state ≠ .down ∧ (s.link g).state ≠ .fenced ∧ (s.link
    g).hbAt.getD (s.link g).trainedAt + 1100000 ≤ s.pst.up ∧ (s.link g).hbMiss = 7 ∧ (s.link g).peer = some p ∧
    s.ownId.isSome = true ∧ isArbiter s = false :=
  ⟨{ mod1 with links := [(4, lnk 7)] }, 4, 2, by decide +kernel⟩

theorem witness_HeartbeatsAndFencingComplete_5 :
  ∃ (s : State) (a b : Fin 9), s.on = true ∧ isArbiter s = true ∧ s.ownId = some (atPos s s.dev.position) ∧ b.val ≠
    s.dev.position ∧ b.val < 8 ∧ posActive s b = true ∧ ((a.val = 8 ∨ posActive s a = true)) ∧ a = b :=
  ⟨job, 3, 3, by decide +kernel, by decide +kernel, by decide +kernel, by decide +kernel, by decide +kernel,
    by decide +kernel, by decide +kernel, rfl⟩

theorem witness_HeartbeatsAndFencingComplete_6 :
  ∃ (s : State) (a b : Fin 9), s.on = true ∧ isArbiter s = true ∧ s.ownId = some (atPos s s.dev.position) ∧ b.val ≠
    s.dev.position ∧ b.val < 8 ∧ posActive s b = true ∧ ((a.val = 8 ∨ posActive s a = true)) ∧ a ≠ b ∧ ((∀ x ∈
    s.nwt.suspects, x.peer = b.val → x.sender ≠ a.val)) ∧ (s.nwt.suspects.filter fun x => decide (x.peer = b.val) &&
    decide (x.sender < 8)).length < 3 :=
  ⟨{ job with nwt := { suspects := [⟨1, 3, 5⟩, ⟨8, 3, 5⟩] } }, 4, 3, by decide +kernel⟩

theorem witness_HeartbeatsAndFencingComplete_7 :
  ∃ (s : State) (a b : Fin 9), s.on = true ∧ isArbiter s = true ∧ s.ownId = some (atPos s s.dev.position) ∧ b.val ≠
    s.dev.position ∧ b.val < 8 ∧ posActive s b = true ∧ ((a.val = 8 ∨ posActive s a = true)) ∧ a ≠ b ∧ a.val < 8 ∧ ((∀ x
    ∈ s.nwt.suspects, x.peer = b.val → x.sender ≠ a.val)) ∧ (s.nwt.suspects.filter fun x => decide (x.peer = b.val) &&
    decide (x.sender < 8)).length = 3 :=
  ⟨{ job with nwt := { suspects := [⟨1, 3, 5⟩, ⟨0, 3, 5⟩, ⟨2, 3, 5⟩, ⟨8, 3, 5⟩] } }, 4, 3, by decide +kernel⟩

theorem witness_HeartbeatsAndFencingComplete_8 :
  ∃ (s : State) (p : Fin 9), s.on = true ∧ ((∃ x ∈ s.nwt.suspects, x.peer = p.val)) ∧ (s.nwt.suspects.filter fun x =>
    x.peer = p.val).length < 4 ∧ ((∀ x ∈ s.nwt.suspects, x.peer = p.val → x.at_ + 20 * 10^6 ≤ s.pst.up)) :=
  ⟨{ job with nwt := { suspects := [⟨1, 3, 5⟩, ⟨0, 3, 5⟩, ⟨0, 4, 5⟩] } }, 3, by decide +kernel⟩

theorem witness_HeartbeatsAndFencingComplete_9 :
  ∃ (s : State), s.on = true ∧ s.dev.mode = .service ∧ 4 ≤ ((List.range 8).filter fun g => decide (8 ≤ (s.link
    g).hbMiss) && (s.link g).peer.any fun p => decide (p ≠ s.dev.position) && posActive s p).length :=
  ⟨{ job with links := (List.range 4).map fun i => (i, { lnk 8 with peer := some (i + 1) }), service := svc7 },
    by decide +kernel⟩

theorem witness_HeartbeatsAndFencingComplete_10 :
  ∃ (s : State) (sh : Fin 512) (p : Plan), s.on = true ∧ s.plan = some p ∧ isCoordinator s = true ∧ s.dev.position < 8
    ∧ s.ownId = some (atPos s s.dev.position) ∧ sh.val ≠ s.dev.sheaf :=
  ⟨{ job with plan := some { plan0 with modules := [0, 1, 8, 9, 16] }, fenced := [9] }, 1,
    { plan0 with modules := [0, 1, 8, 9, 16] }, by decide +kernel⟩

theorem witness_HeartbeatsAndFencingComplete_11 :
  ∃ (s : State) (m _a : ModuleId) (_cause : Byte), s.on = true ∧ s.ownId ≠ some m.toNat ∧ s.fenced.contains m.toNat =
    false :=
  ⟨{ job with watches := [⟨2, 5, 5, 1, false⟩, ⟨3, 5, 5, 1, false⟩], waits := [⟨4, 9, 5, 1, 5, false, none, some 2⟩] },
    2, 0, 1, by decide +kernel⟩

theorem witness_HeartbeatsAndFencingComplete_12 :
  ∃ (s : State) (m _a : ModuleId) (_cause : Byte), s.on = true ∧ s.ownId = some m.toNat ∧ s.dev.mode = .service :=
  ⟨{ job with service := svc7 }, 0, 1, 1, by decide +kernel⟩

theorem witness_HeartbeatsAndFencingComplete_13 :
  ∃ (s : State) (_m _a : ModuleId) (_cause : Byte), s.on = true ∧ s.ownId.isSome = true :=
  ⟨{ withReserve job with nwt := { handover := true } }, 0, 1, 1, by decide +kernel⟩

theorem witness_TakeoverComplete_1 :
  ∃ (s : State) (p : Fin 8) (_homes : List FencedHome) (k : Takeover), s.on = true ∧ s.nwt.takeovers.find? (fun t =>
    t.pos = p.val && !t.begun) = some k ∧ s.dev.position = 8 ∧ s.ownId = none :=
  ⟨{ reserve with nwt := tk 2 2 false, fenced := [2] }, 2, [⟨77, 3, [5]⟩], ⟨2, 2, 10^11 - 40 * 10^9, false⟩,
    by decide +kernel⟩

theorem witness_TakeoverComplete_2 :
  ∃ (s : State) (p : Fin 8) (_homes : List FencedHome) (k : Takeover), s.on = true ∧ s.nwt.takeovers.find? (fun t =>
    t.pos = p.val && !t.begun) = some k ∧ s.ownId.isSome = true ∧ reserveUsable s = true :=
  ⟨{ withReserve thr1 with nwt := tk 2 2 false, fenced := [2] }, 2, [], ⟨2, 2, 10^11 - 40 * 10^9, false⟩,
    by decide +kernel⟩

theorem witness_TakeoverComplete_3 :
  ∃ (s : State) (p : Fin 8) (_homes : List FencedHome) (k : Takeover), s.on = true ∧ s.nwt.takeovers.find? (fun t =>
    t.pos = p.val && !t.begun) = some k ∧ s.ownId.isSome = true ∧ reserveUsable s = false ∧ s.dev.position < 8 ∧ p.val =
    (s.dev.position ^^^ 4) ∧ s.ownId ≠ some k.module :=
  ⟨{ thr1 with thresher := { thr1.thresher with owners := [⟨3, 4, 0, 64⟩], secured := [⟨4, 3, copy0⟩] }, nwt := tk 4 4 false, fenced := [4] },
    4, [], ⟨4, 4, 10^11 - 40 * 10^9, false⟩, by decide +kernel⟩

theorem witness_TakeoverComplete_4 :
  ∃ (s : State) (p : Fin 8) (_homes : List FencedHome) (k : Takeover), s.on = true ∧ s.nwt.takeovers.find? (fun t =>
    t.pos = p.val && !t.begun) = some k ∧ s.ownId.isSome = true ∧ reserveUsable s = false ∧ p.val ≠ (s.dev.position ^^^
    4) ∧ s.dev.position < 8 ∧ k.module ≠ atPos s (p.val ^^^ 4) :=
  ⟨{ thr1 with thresher := { thr1.thresher with owners := [⟨4, 2, 0, 64⟩] }, nwt := tk 2 2 false, fenced := [2] }, 2,
    [], ⟨2, 2, 10^11 - 40 * 10^9, false⟩, by decide +kernel⟩

theorem witness_TakeoverComplete_5 :
  ∃ (s : State) (ordered : Bool) (loss : Option (Word × Word)) (k : Takeover), s.on = true ∧ s.nwt.takeovers.find?
    (fun t => t.begun) = some k ∧ checkPasses s ordered loss = true :=
  ⟨{ thr1 with nwt := tk 2 2 true }, true, some (5, 5), ⟨2, 2, 10^11 - 40 * 10^9, true⟩, by decide +kernel⟩

theorem witness_TakeoverComplete_6 :
  ∃ (s : State) (ordered : Bool) (loss : Option (Word × Word)) (k : Takeover), s.on = true ∧ s.nwt.takeovers.find?
    (fun t => t.begun) = some k ∧ checkPasses s ordered loss = false :=
  ⟨{ thr { shard1 with nvme := some copy0 } with nwt := tk 2 2 true }, true, some (5, 6), ⟨2, 2, 10^11 - 40 * 10^9,
    true⟩, by decide +kernel⟩

theorem witness_TakeoverComplete_7 :
  ∃ (s : State) (k : Takeover), s.on = true ∧ s.nwt.takeovers.find? (fun t => decide (s.pst.up ≥ t.at_ + (survival
    s).takeoverS * 10^9)) = some k :=
  ⟨{ thr { shard1 with nvme := some copy0 } with nwt := tk 2 2 true }, ⟨2, 2, 10^11 - 40 * 10^9, true⟩,
    by decide +kernel⟩

theorem witness_TakeoverComplete_8 :
  ∃ (s : State), s.on = true ∧ s.ownId = none ∧ s.dev.mode = .service ∧ ((∀ g, g < 8 → posActive s g = true → linkRuns
    (s.link g) = true)) :=
  ⟨{ reserve with fenced := [0, 1, 2, 3, 4, 5, 6, 7] }, by decide +kernel⟩

theorem witness_TakeoverComplete_9 :
  ∃ (s : State), ∃ p, ∃ rest, s.on = true ∧ s.ownId.isSome = true ∧ s.nwt.short = p :: rest ∧ reserveUsable s = true ∧
    ((∀ x ∈ s.nwt.takeovers, x.pos ≠ p)) :=
  ⟨{ withReserve job with nwt := { short := [2, 4] } }, 2, [4], by decide +kernel⟩

theorem witness_TakeoverComplete_10 :
  ∃ (s : State) (o : ModuleId) (tensor : Nat) (c : ShardCopy), ∃ x, s.on = true ∧ s.fenced.contains o.toNat = false ∧
    s.ownId = some o.toNat ∧ ownShard s tensor = some x ∧ x.poison = false ∧ stepPos c.step ≤ stepPos x.step ∧ buddyFenced s = false :=
  ⟨thr { shard1 with step := 8 }, 0, 3, copy0, { shard1 with step := 8 }, by decide +kernel⟩

theorem witness_TakeoverComplete_11 :
  ∃ (s : State) (o : ModuleId) (tensor : Nat) (c : ShardCopy), s.on = true ∧ s.fenced.contains o.toNat = false ∧
    s.ownId ≠ some o.toNat ∧ buddyOf s = some o.toNat ∧ ((∀ x ∈ s.thresher.secured, x.owner = o.toNat → x.tensor =
    tensor → stepPos x.copy.step ≤ stepPos c.step)) :=
  ⟨{ thr1 with thresher := { thr1.thresher with secured := [⟨4, 9, copy0⟩] } }, 4, 9, { copy0 with step := 8 },
    by decide +kernel⟩

theorem witness_TakeoverComplete_12 :
  ∃ (s : State) (o : ModuleId) (tensor : Nat) (c : ShardCopy), ∃ x, s.on = true ∧ s.fenced.contains o.toNat = false ∧
    s.ownId = some o.toNat ∧ ownShard s tensor = some x ∧ x.poison = true ∧ x.halves.length = 2 ∧ c.step = x.step ∧
    masterFpOf c.half.master = x.masterFp :=
  ⟨thr { shard1 with step := 7, poison := true, masterFp := masterFpOf [] }, 0, 3, copy0,
    { shard1 with step := 7, poison := true, masterFp := masterFpOf [] }, by decide +kernel⟩

theorem witness_RefusedMessageChangesNothing_1 :
  ∃ op, ∃ (s : State) (m : Msg) (x : Conn) (st : Status) (d : Nat), op ∈ msgCommands ∧ s.on = true ∧ SMap.find
    s.service.conns m.conn = some x ∧ msgCheck s op.1 m x = some (st, d) ∧ op.1.code ≠ 0x10 :=
  ⟨(tBye, .bye), cli, { msg 5 [] with flags := 1 }, tconn, .badDescriptor, 0x47, by simp [msgCommands],
    by decide +kernel⟩

theorem witness_SessionCommandsComplete_1 :
  ∃ (s : State) (c : Nat) (supported : Bool), s.on = true ∧ SMap.find s.service.conns c = none ∧ serves s = true ∧
    supported = true ∧ s.service.conns.length < 4096 :=
  ⟨cli, 2, true, by decide +kernel, by decide +kernel, by decide +kernel, rfl, by decide +kernel⟩

theorem witness_SessionCommandsComplete_2 :
  ∃ (s : State) (c : Nat) (supported : Bool), s.on = true ∧ SMap.find s.service.conns c = none ∧ ((serves s = false ∨
    supported = false ∨ 4096 ≤ s.service.conns.length)) :=
  ⟨cli, 2, false, by decide +kernel, by decide +kernel, Or.inr (Or.inl rfl)⟩

theorem witness_SessionCommandsComplete_3 :
  ∃ (s : State) (_c _n : Nat), s.on = true :=
  ⟨cli, 1, 0, by decide +kernel⟩

theorem witness_SessionCommandsComplete_4 :
  ∃ (s : State) (c : Nat), ∃ x, s.on = true ∧ SMap.find s.service.conns c = some x :=
  ⟨cli, 1, tconn, by decide +kernel⟩

theorem witness_SessionCommandsComplete_5 :
  ∃ (s : State) (c : Nat), ∃ x, s.on = true ∧ SMap.find s.service.conns c = some x ∧ x.hello.isSome = true ∧ x.auth =
    false ∧ x.helloAt + 10 * 10^9 ≤ s.pst.up :=
  ⟨{ cli with service := { cli.service with conns := [(1, { tconn with auth := false })] } }, 1,
    { tconn with auth := false }, by decide +kernel⟩

theorem witness_SessionCommandsComplete_6 :
  ∃ (s : State) (m : Msg) (x : Conn), Accepted s tHello m x ∧ fieldAt m.body 0 1 = 1 ∧ fieldAt m.body 1 1 ≤ 3 ∧
    fieldAt m.body 2 2 ≤ 4095 ∧ zeroAt m.body 4 4 = true ∧ ((∀ y, session? s (BitVec.ofNat 64 (fieldAt m.body 8 8)) =
    some y → y.binding = .tenant (fieldAt m.body 2 2))) :=
  ⟨cli, msg 5 helloB, tconn, by decide +kernel⟩

theorem witness_SessionCommandsComplete_7 :
  ∃ (s : State) (m : Msg) (x : Conn), ∃ id, ∃ b, Accepted s tAuth m x ∧ zeroAt m.body 114 14 = true ∧ x.hello = some
    (id, b) ∧ authVerifies s x (m.body.take 114) = true ∧ ((∀ y, session? s id = some y → sameBinding y.binding b =
    true)) :=
  ⟨{ cli with service := { cli.service with conns := [(1, { tconn with auth := false, nonce := List.replicate 32 7, role := 1 })] } },
    msg 5 (zeroPoint ++ List.replicate 71 0), { tconn with auth := false, nonce := List.replicate 32 7, role := 1 }, 7,
    .tenant 0, by decide +kernel⟩

theorem witness_SessionCommandsComplete_12 :
  ∃ (s : State) (m : Msg) (x : Conn), ∃ id, ∃ b, ∃ w, Accepted s tAuth m x ∧ zeroAt m.body 114 14 = true ∧ x.hello = some
    (id, b) ∧ authVerifies s x (m.body.take 114) = true ∧ session? s id = some w ∧ w.conn = none ∧ w.flight ≠ [] :=
  ⟨{ cli with service := { cli.service with
      conns := [(1, { tconn with auth := false, nonce := List.replicate 32 7, role := 1 })]
      sessions := [(7, ⟨.tenant 0, none, 0, [], [], [⟨0x12, .ok, 0, 0, []⟩]⟩)] } },
    msg 5 (zeroPoint ++ List.replicate 71 0), { tconn with auth := false, nonce := List.replicate 32 7, role := 1 }, 7,
    .tenant 0, ⟨.tenant 0, none, 0, [], [], [⟨0x12, .ok, 0, 0, []⟩]⟩, by decide +kernel⟩

/-- R429: of two messages in flight at a loss, the one not sent goes out again. -/
theorem test_resend : lastOf 1 [⟨0x12, .ok, 0, 0, [1]⟩, ⟨0x12, .ok, 0, 0, [2]⟩] = [⟨0x12, .ok, 0, 0, [2]⟩] := by decide

theorem witness_SessionCommandsComplete_8 :
  ∃ (s : State) (m : Msg) (x : Conn), Accepted s tAuth m x ∧ zeroAt m.body 114 14 = true ∧ authVerifies s x
    (m.body.take 114) = false :=
  ⟨{ cli with service := { cli.service with conns := [(1, { tconn with hello := none, auth := false, fails := 2 })] } },
    msg 5 (List.replicate 128 0), { tconn with hello := none, auth := false, fails := 2 }, by decide +kernel⟩

theorem witness_SessionCommandsComplete_9 :
  ∃ (s : State) (m : Msg) (x : Conn), Accepted s tBye m x :=
  ⟨cli, msg 5 [], tconn, by decide +kernel⟩

theorem witness_SessionCommandsComplete_10 :
  ∃ (s : State) (id : DWord) (y : SvcSession), s.on = true ∧ session? s id = some y ∧ y.conn = none ∧ y.fenced = [] ∧
    y.detachedAt + 60 * 10^9 ≤ s.pst.up :=
  ⟨{ cli with service := lone (.tenant 0) [], serving := { queue := [{ req := req0 9, ran := 0, since := 0 }], slots := [(2, slot0 8)] } }, 7,
    ⟨.tenant 0, none, 0, [], [], []⟩, by decide +kernel⟩

theorem witness_SessionCommandsComplete_11 :
  ∃ (s : State) (id : DWord) (y : SvcSession), s.on = true ∧ session? s id = some y ∧ y.conn = none ∧ ((∀ k ∈
    s.nwt.takeovers, k.begun = false)) ∧ s.nwt.takenAt + 60 * 10^9 ≤ s.pst.up :=
  ⟨{ cli with service := lone (.tenant 0) [⟨0x13, .fenced, 0, 5, []⟩] }, 7, ⟨.tenant 0, none, 0, [], [⟨0x13, .fenced,
    0, 5, []⟩], []⟩, by decide +kernel⟩

theorem witness_ClientRequestsComplete_1 :
  ∃ (s : State) (m : Msg) (x : Conn) (_bulk : Bulk) (r : GenReq), Accepted s tGenerate m x ∧ bit (fieldAt m.body 1 1)
    4 = true ∧ r = genOf m ((connSession x).getD 0) ((connTenant x).getD 0) (wordsOf (m.body.drop 64) (fieldAt m.body 12
    4)) ∧ genMalformed m r = false ∧ genRefused s r = none :=
  ⟨cli, msg 9 (genBody 0x14), tconn, none, genOf (msg 9 (genBody 0x14)) 7 0 [1, 2, 12], by decide +kernel,
    by decide +kernel, rfl, by decide +kernel⟩

theorem witness_ClientRequestsComplete_2 :
  ∃ (s : State) (m : Msg) (x : Conn) (d : List Byte) (r : GenReq), Accepted s tGenerate m x ∧ bit (fieldAt m.body 1 1)
    4 = false ∧ refLen m 64 ≠ 0 ∧ d.length = refLen m 64 ∧ r = genOf m ((connSession x).getD 0) ((connTenant x).getD 0)
    (wordsOf d (fieldAt m.body 12 4)) ∧ genMalformed m r = false ∧ genRefused s r = none :=
  ⟨cli, msg 9 (bytesOf 88 [(1, 1, 4), (12, 4, 3), (16, 4, 5), (28, 4, 42), (72, 8, 12)]), tconn, promptB, genOf (msg 9
    (bytesOf 88 [(1, 1, 4), (12, 4, 3), (16, 4, 5), (28, 4, 42), (72, 8, 12)])) 7 0 [1, 2, 3], by decide +kernel,
    by decide +kernel, by decide +kernel, by decide +kernel, rfl, by decide +kernel⟩

theorem witness_ClientRequestsComplete_3 :
  ∃ (s : State) (m : Msg) (x : Conn), ∃ q, Accepted s tCancel m x ∧ foreignHome s (BitVec.ofNat 64 (fieldAt m.body 0
    8)) = none ∧ mayName x (BitVec.ofNat 64 (fieldAt m.body 0 8)) = true ∧ queuedReq s (BitVec.ofNat 64 (fieldAt m.body
    0 8)) = some q :=
  ⟨{ cli with serving := { queue := [{ req := req0 9, ran := 0, since := 0 }] } }, msg 5 (leBytes 8 9), tconn, { req := req0 9, ran := 0, since := 0 },
    by decide +kernel⟩

theorem witness_ClientRequestsComplete_4 :
  ∃ (s : State) (m : Msg) (x : Conn), ∃ i, ∃ y, Accepted s tCancel m x ∧ foreignHome s (BitVec.ofNat 64 (fieldAt
    m.body 0 8)) = none ∧ mayName x (BitVec.ofNat 64 (fieldAt m.body 0 8)) = true ∧ queuedReq s (BitVec.ofNat 64
    (fieldAt m.body 0 8)) = none ∧ slotOfReq s (BitVec.ofNat 64 (fieldAt m.body 0 8)) = some (i, y) ∧ slot? s i = some y
    ∧ y.state ≠ .ending :=
  ⟨{ cli with serving := { slots := [(2, slot0 8)] } }, msg 5 (leBytes 8 8), tconn, 2, slot0 8, by decide +kernel⟩

theorem witness_ClientRequestsComplete_5 :
  ∃ (s : State) (m : Msg) (x : Conn) (i : Nat) (r : Sample), Accepted s tReward m x ∧ foreignHome s (BitVec.ofNat 64
    (fieldAt m.body 0 8)) = none ∧ fieldAt m.body 8 4 ≠ 0xFFFFFFFF ∧ rewardCheck s (mayName x (BitVec.ofNat 64 (fieldAt m.body 0 8)))
    (BitVec.ofNat 64 (fieldAt m.body 0 8)) false (fun r => r.reqId == BitVec.ofNat 64 (fieldAt m.body 0 8) && r.index == fieldAt m.body 8 4) (fieldAt
    m.body 12 4) = none ∧ i ∈ SMap.keys s.insts ∧ (inst s i).store.find? (fun r => r.reqId == BitVec.ofNat 64 (fieldAt
    m.body 0 8) && r.index == fieldAt m.body 8 4) = some r :=
  ⟨{ cli with insts := [(0, { store := [rec0] })] }, msg 5 (leBytes 8 8 ++ leBytes 4 0 ++ leBytes 4 0x3F800000),
    tconn, 0, rec0, by decide +kernel⟩

theorem witness_ClientRequestsComplete_6 :
  ∃ (s : State) (m : Msg) (x : Conn) (r : Sample) (l : List Sample), Accepted s tSampleRead m x ∧ refLen m 24 ≠ 0 ∧
    zeroAt m.body 2 6 = true ∧ zeroAt m.body 20 4 = true ∧ zeroAt m.body 44 4 = true ∧ fieldAt m.body 16 4 ≠ 0 ∧ fieldAt
    m.body 16 4 ≤ 65536 ∧ (planInst s (fieldAt m.body 0 2)).isSome = true ∧ ((inst s (fieldAt m.body 0 2)).store.filter
    fun r => decide (fieldAt m.body 8 8 ≤ r.seq) &&
    (match connTenant x with | some k => r.tenant == k | none => true)).take (min (fieldAt m.body 16 4) (refLen m 24 /
    64)) = r :: l :=
  ⟨{ cli with insts := [(0, { store := [rec0, { rec0 with seq := 7, index := 1 }] })] }, msg 5 (bytesOf 48 [(8, 8, 6),
    (16, 4, 9), (32, 8, 128)]), tconn, rec0, [{ rec0 with seq := 7, index := 1 }], by decide +kernel⟩

theorem witness_ClientRequestsComplete_7 :
  ∃ (s : State) (m : Msg) (x : Conn) (im : List Byte), Accepted s tAdapterPut m x ∧ refLen m 8 ≠ 0 ∧ im.length =
    refLen m 8 ∧ zeroAt m.body 2 6 = true ∧ zeroAt m.body 28 4 = true ∧ adapterRefused s (fieldAt m.body 0 2)
    ((connTenant x).getD 0) im = none :=
  ⟨cli, msg 5 (bytesOf 32 [(16, 8, 256)]), tconn, adImage, by decide +kernel⟩

theorem witness_ClientRequestsComplete_8 :
  ∃ (s : State) (m : Msg) (x : Conn) (a : Adapter), Accepted s tAdapterDel m x ∧ zeroAt m.body 4 4 = true ∧ (planInst
    s (fieldAt m.body 0 2)).isSome = true ∧ adapter? s (fieldAt m.body 0 2) (fieldAt m.body 2 2) = some a ∧ connTenant x
    = some a.tenant ∧ a.current.isSome = true :=
  ⟨{ cli with serving := { adapters := [ad0] } }, msg 5 (bytesOf 8 [(2, 2, 6)]), tconn, ad0, by decide +kernel⟩

theorem witness_ClientRequestsComplete_9 :
  ∃ (s : State) (m : Msg) (x : Conn) (h : Nat), Accepted s tCancel m x ∧
    mayName x (BitVec.ofNat 64 (fieldAt m.body 0 8)) = true ∧
    foreignHome s (BitVec.ofNat 64 (fieldAt m.body 0 8)) = some h :=
  ⟨cli, msg 5 (leBytes 8 (3 * 2 ^ 52)), tconn, 3, by decide +kernel⟩

theorem witness_ClientRequestsComplete_10 :
  ∃ (s : State) (m : Msg) (_src : ModuleId) (q : Queued), s.on = true ∧
    queuedReq s (BitVec.ofNat 64 (fieldAt m.body 0 8)) = some q :=
  ⟨{ cli with serving := { queue := [{ req := req0 9, ran := 0, since := 0 }] } }, msg 5 (leBytes 8 9), 2,
    { req := req0 9, ran := 0, since := 0 }, by decide +kernel⟩

def calA : List Byte := ascii "KYCL" ++ leBytes 4 hwType ++ leBytes 16 0 ++ [2] ++ List.replicate 7 0
def calB : List Byte :=
  List.replicate 28 0 ++ ((List.range 128).map fun i => leBytes 2 700 ++ leBytes 2 (600 + 100 * (i % 8))).flatten
def calPad : List Byte := List.replicate 62528 0#8
def calCrc : List Byte := leBytes 4 (crc32c (calA ++ (calB ++ calPad)))
/-- A calibration set with every sensor offset 0 and one voltage at eight rising clocks. -/
def calSet : List Byte := calA ++ (calCrc ++ (calB ++ calPad))

theorem crcByte_lt (c : Nat) (h : c < 2^32) : crc32cByte c < 2^32 := by
  unfold crc32cByte
  generalize List.range 8 = l
  induction l generalizing c with
  | nil => exact h
  | cons _ t ih =>
    refine ih _ ?_
    show (if c % 2 = 1 then c / 2 ^^^ 2197175160 else c / 2) < 2^32
    split
    · exact Nat.xor_lt_two_pow (by omega) (by omega)
    · omega

theorem crc_lt (l : List Byte) : crc32c l < 2^32 := by
  have : ∀ c, c < 2^32 → l.foldl (fun c b => crc32cByte (c ^^^ b.toNat)) c < 2^32 := by
    induction l with
    | nil => exact fun c h => h
    | cons b t ih => exact fun c h => ih _ (crcByte_lt _ (Nat.xor_lt_two_pow h (by have := b.isLt; omega)))
  exact Nat.xor_lt_two_pow (this _ (by omega)) (by omega)

theorem leNat_le4 (n : Nat) (h : n < 2^32) : leNat (leBytes 4 n) = n := by
  simp only [leBytes, leNat, BitVec.toNat_ofNat]
  omega

theorem leNat_zeros (n : Nat) : leNat (List.replicate n 0#8) = 0 := by
  induction n with
  | zero => rfl
  | succ n ih => rw [List.replicate_succ, leNat, ih]; rfl

theorem drop_pad (a : List Byte) (n off : Nat) (h : a.length ≤ off) :
    (a ++ List.replicate n 0#8).drop off = List.replicate (n - (off - a.length)) 0#8 := by
  rw [List.drop_append, List.drop_eq_nil_of_le h, List.nil_append, List.drop_replicate]

theorem calSet_drop (off : Nat) (h : 576 ≤ off) : ∃ n, calSet.drop off = List.replicate n 0#8 := by
  have hl : (calA ++ (calCrc ++ calB)).length = 576 := by decide +kernel
  have e : calSet = (calA ++ (calCrc ++ calB)) ++ calPad := by simp only [calSet, List.append_assoc]
  rw [e, calPad]
  exact ⟨_, drop_pad _ _ _ (by rw [hl]; exact h)⟩

theorem calSet_length : calSet.length = calLen := by
  have h : (calA ++ (calCrc ++ calB)).length = 576 := by decide +kernel
  rw [show calSet = (calA ++ (calCrc ++ calB)) ++ calPad by simp only [calSet, List.append_assoc], List.length_append, h, calPad,
    List.length_replicate]
  rfl

theorem calSet_ok : calBad opr calSet true = none := by
  have hA : calA.length = 32 := by decide +kernel
  have hC : calCrc.length = 4 := rfl
  have h0 : ∀ off k, 576 ≤ off → fieldAt calSet off k = 0 := fun off k h => by
    obtain ⟨n, e⟩ := calSet_drop off h
    rw [fieldAt, e, List.take_replicate, leNat_zeros]
  have h1 : calSet.take 32 = calA := by
    rw [calSet, ← hA, List.take_left]
  have h2 : calSet.drop 36 = calB ++ calPad := by
    rw [calSet, ← List.append_assoc, show 36 = (calA ++ calCrc).length by simp [hA, hC], List.drop_left]
  have h3 : fieldAt calSet 32 4 = crc32c (calSet.take 32 ++ calSet.drop 36) := by
    rw [h1, h2, fieldAt, calSet, ← hA, List.drop_left, ← hC, List.take_left]
    exact leNat_le4 _ (crc_lt _)
  have h4 : ((List.range 80).map fun i =>
      failAt (decide (toInt 16 (fieldAt calSet (16960 + 2 * i) 2) < -320)
        || decide (toInt 16 (fieldAt calSet (16960 + 2 * i) 2) > 320)) (16960 + 2 * i)).flatten = [] := by
    have : ∀ i, fieldAt calSet (16960 + 2 * i) 2 = 0 := fun i => h0 _ _ (by omega)
    simp only [this]
    decide
  have h5 : firstNonzero calSet 23520 39584 = [] := by
    obtain ⟨n, e⟩ := calSet_drop 23520 (by omega)
    have : (List.replicate (min 39584 n) 0#8).findIdx? (· ≠ 0) = none := by
      rw [List.findIdx?_eq_none_iff]
      intro x hx; simp [(List.mem_replicate.mp hx).2]
    rw [firstNonzero, e, List.take_replicate, this]
  have h6 : ((List.range 128).map fun i =>
      failAt (decide (fieldAt calSet (64 + 4 * i) 2 < 600) || decide (fieldAt calSet (64 + 4 * i) 2 > 1000)) (64 + 4 * i)
        ++ failAt (decide (fieldAt calSet (64 + 4 * i + 2) 2 < 500) || decide (fieldAt calSet (64 + 4 * i + 2) 2 > 2700)
          || (i % 8 != 0 && decide (fieldAt calSet (64 + 4 * i + 2) 2 ≤ fieldAt calSet (64 + 4 * (i - 1) + 2) 2)))
          (64 + 4 * i + 2)).flatten = [] := by decide +kernel
  have h7 : failAt (decide (calSet.take 4 ≠ ascii "KYCL")) 0 ++ failAt (fieldAt calSet 4 4 != hwType) 4
    ++ failAt (fieldAt calSet 8 16 != opr.dev.serial.toNat) 8
    ++ failAt (!(fieldAt calSet 24 1 == 2 || (fieldAt calSet 24 1 == 1 && !true))) 24
    ++ firstNonzero calSet 25 3 = [] := by decide +kernel
  have h8 : firstNonzero calSet 36 28 = [] := by decide +kernel
  have h9 : failAt (decide (fieldAt calSet 32 4 ≠ crc32c (calSet.take 32 ++ calSet.drop 36))) 32 = [] := by
    rw [← h3]; simp [failAt]
  unfold calBad
  simp only [h4, h5, h6, h7, h8, h9, List.nil_append]
  rfl

/-- The operator while a plan with one instance of one tensor is loaded, and a publisher key in slot 0. -/
def wtens : TensorPlan := ⟨3, 1, [8, 8], none, true, 1, 0, 0⟩
def oprW : State :=
  { opr with plan := some { plan1 with instances := [{ inst0 with tensors := [wtens] }] }, alm := { mram := [], ready := true }
             dev := { opr.dev with config := List.replicate 128 0 ++ zeroPoint ++ [0] } }
def wdata : List Byte := List.replicate 128 0
/-- Its manifest, in version 1. -/
def wman : List Byte :=
  bytesOf 64 [(0, 2, 1), (4, 4, 1), (8, 8, 77), (16, 4, 1), (24, 8, 128)]
  ++ (bytesOf 48 [(0, 4, 3), (4, 1, 1), (5, 1, 2), (8, 4, 8), (12, 4, 8), (24, 4, 0x3F800000), (40, 8, 128)]
    ++ leBytes 64 0xca9704ef07c523a2b02eea849254736dcb29706843e4378f140ca597db33e8c1bacbf3d203748741c896aaf12d12c1f9d248e574457eaae1567c48d3964b8622 ++ List.replicate 16 0) ++ (zeroPoint ++ List.replicate 71 0)
theorem read_empty (a n : Nat) : Memory.read 0 [] a n = List.replicate n 0#8 := by
  induction n generalizing a with
  | zero => rfl
  | succ n ih => rw [Memory.read, ih, List.replicate_succ]; rfl

theorem pinCopy_empty (i : PinItem) (a : Nat) (h : i.size = 64) (h' : i.crc = 60) : pinCopy [] i a = none := by
  have e : ¬ crc32c ((List.replicate 64 0#8).take 60) = fieldAt (List.replicate 64 0#8) 60 4 := by decide +kernel
  unfold pinCopy
  rw [h, h', read_empty]
  exact if_neg e

theorem setTable_empty (s : State) (h : s.alm.mram = []) : setTable s = [] := by
  have e : ∀ j, pinRead [] (itemSet j) = none := fun j => by
    unfold pinRead
    rw [pinCopy_empty _ _ rfl rfl, pinCopy_empty _ _ rfl rfl]
  unfold setTable
  rw [h, List.flatten_eq_nil_iff]
  intro l hl
  obtain ⟨j, -, rfl⟩ := List.mem_map.mp hl
  rw [e]

theorem wman_ok : manifestCheck oprW wman = none := by
  unfold manifestCheck
  rw [setTable_empty oprW rfl]
  decide +kernel

theorem wman_fetch (j : Nat) (h : j < mTensors wman) : (fetchTensor (mEntry wman j) wdata []).1.isSome = true := by
  have e : mTensors wman = 1 := by decide +kernel
  obtain rfl : j = 0 := by omega
  decide +kernel

def oprJ : State := { opr with plan := some plan1, thresher := thr1.thresher }
def ref32 (n : Nat) : List Byte := bytesOf 32 [(16, 8, n)]
def sts (sel : Nat) : Msg := msg 5 (bytesOf 32 [(0, 2, sel)])
/-- A plan that passes every check. -/
def planOk : Plan := { plan0 with kvPages := 1, kvPageLog := 16 }

theorem witness_OperatorRequestsComplete_1 :
  ∃ (s : State) (m : Msg) (x : Conn) (p : Plan), Accepted s tPlan m x ∧ refLen m 8 ≠ 0 ∧ fieldAt m.body 0 1 = 0 ∧
    zeroAt m.body 1 7 = true ∧ zeroAt m.body 28 4 = true ∧ s.plan = none ∧ planBad s p = none :=
  ⟨opr, msg 5 (ref32 64), oconn, planOk, by decide +kernel⟩

theorem witness_OperatorRequestsComplete_2 :
  ∃ (s : State) (m : Msg) (x : Conn), Accepted s tPlan m x ∧ fieldAt m.body 0 1 = 1 ∧ zeroAt m.body 1 7 = true ∧
    zeroAt m.body 28 4 = true ∧ refLen m 8 = 0 ∧ s.plan.isSome = true :=
  ⟨{ oprJ with serving := { queue := [{ req := req0 9, ran := 0, since := 0 }], slots := [(2, slot0 8)] } }, msg 5 (bytesOf 32 [(0, 1, 1)]),
    oconn, by decide +kernel⟩

theorem witness_OperatorRequestsComplete_3 :
  ∃ (s : State) (m : Msg) (x : Conn) (mf d again : List Byte), Accepted s tWeightSet m x ∧ refLen m 8 ≠ 0 ∧ refLen m
    32 ≠ 0 ∧ zeroAt m.body 0 8 = true ∧ zeroAt m.body 28 4 = true ∧ zeroAt m.body 52 4 = true ∧ manifestCheck s mf =
    none ∧ ((∀ j, j < mTensors mf → (fetchTensor (mEntry mf j) d again).1.isSome = true)) :=
  ⟨oprW, msg 5 (bytesOf 56 [(16, 8, 64), (40, 8, 128)]), oconn, wman, wdata, [], by decide +kernel, by decide +kernel,
    by decide +kernel, by decide +kernel, by decide +kernel, by decide +kernel, wman_ok, wman_fetch⟩

theorem witness_OperatorRequestsComplete_4 :
  ∃ (s : State) (m : Msg) (x : Conn), Accepted s tLearn m x ∧ zeroAt m.body 2 6 = true ∧ (cycle? s (fieldAt m.body 0
    2)).isSome = true ∧ phaseOf s (fieldAt m.body 0 2) = .generation ∧ s.nwt.learnStopped = false :=
  ⟨oprJ, msg 5 (List.replicate 8 0), oconn, by decide +kernel⟩

theorem witness_OperatorRequestsComplete_5 :
  ∃ (s : State) (m : Msg) (x : Conn), Accepted s tSecure m x ∧ isCoordinator s = true ∧ s.nwt.eclipse = .none :=
  ⟨oprJ, msg 5 [], oconn, by decide +kernel⟩

theorem witness_OperatorRequestsComplete_6 :
  ∃ (s : State) (m : Msg) (x : Conn), Accepted s tHandover m x ∧ fieldAt m.body 0 2 ≤ 4095 ∧ zeroAt m.body 2 6 = true
    ∧ some (fieldAt m.body 0 2) = s.ownId ∧ s.dev.mode = .service ∧ s.plan.isSome = true ∧ reserveUsable s = true ∧ ((∀
    g, g < 7 → linkRuns (s.link g) = true → (s.link g).hbState ≠ 5#8)) :=
  ⟨withReserve oprJ, msg 5 (List.replicate 8 0), oconn, by decide +kernel⟩

theorem witness_OperatorRequestsComplete_7 :
  ∃ (s : State) (m : Msg) (x : Conn), Accepted s tTenant m x ∧ fieldAt m.body 0 2 ≤ 4095 ∧ fieldAt m.body 2 2 ≤ 1 ∧
    zeroAt m.body 81 15 = true ∧ fieldAt m.body 4 4 ≤ 16384 ∧ fieldAt m.body 8 4 ≤ 8388608 ∧ fieldAt m.body 12 4 ≤ 65536 :=
  ⟨opr, msg 5 (bytesOf 96 [(0, 2, 3), (2, 2, 1), (4, 4, 16384), (16, 8, 5)]), oconn, by decide +kernel⟩

theorem witness_OperatorRequestsComplete_8 :
  ∃ (s : State) (m : Msg) (x : Conn), Accepted s tCalRead m x ∧ calLen ≤ refLen m 8 ∧ calBody m = true :=
  ⟨opr, msg 5 (ref32 65536), oconn, by decide +kernel⟩

theorem witness_OperatorRequestsComplete_9 :
  ∃ (s : State) (m : Msg) (x : Conn) (c : List Byte), Accepted s tCalWrite m x ∧ s.wf = true ∧ calLen ≤ refLen m 8 ∧
    c.length = calLen ∧ calBody m = true ∧ calBad s c true = none :=
  ⟨opr, msg 5 (ref32 65536), oconn, calSet, by decide +kernel, by decide +kernel, by decide +kernel, calSet_length,
    by decide +kernel, calSet_ok⟩

theorem witness_OperatorRequestsComplete_10 :
  ∃ (s : State) (m : Msg) (x : Conn) (d : List Byte), Accepted s tFwBlock m x ∧ s.wf = true ∧ fieldAt m.body 8 4 = 0 ∧
    zeroAt m.body 12 4 = true ∧ zeroAt m.body 36 4 = true ∧ refLen m 16 = fieldAt m.body 4 4 ∧ d.length = fieldAt m.body
    4 4 ∧ fieldAt m.body 0 4 = 0 ∧ fieldAt m.body 4 4 % 4096 = 0 ∧ 0 < fieldAt m.body 4 4 ∧ fieldAt m.body 4 4 ≤ 65536 ∧
    s.dev.session = none :=
  ⟨opr, msg 5 (bytesOf 40 [(4, 4, 4096), (24, 8, 4096)]), oconn, List.replicate 4096 0, by decide +kernel⟩

theorem witness_OperatorRequestsComplete_11 :
  ∃ (s : State) (m : Msg) (x : Conn) (p : Plan), Accepted s tHandover m x ∧ fieldAt m.body 0 2 ≤ 4095 ∧
    zeroAt m.body 2 6 = true ∧ some (fieldAt m.body 0 2) ≠ s.ownId ∧ s.plan = some p ∧
    ∃ q ∈ p.modules, q.toNat = fieldAt m.body 0 2 :=
  ⟨oprJ, msg 5 (bytesOf 8 [(0, 2, 1)]), oconn, plan1, by decide +kernel, by decide +kernel, by decide +kernel,
    by decide +kernel, by decide +kernel, 1#12, by decide +kernel, by decide +kernel⟩

theorem witness_OperatorRequestsComplete_12 :
  ∃ (s : State) (_m : Msg) (_src : ModuleId), s.on = true ∧ s.ownId.isSome = true ∧ s.dev.mode = .service ∧
    s.plan.isSome = true ∧ reserveUsable s = true ∧
    ((∀ g, g < 7 → linkRuns (s.link g) = true → (s.link g).hbState ≠ 5#8)) :=
  ⟨withReserve oprJ, msg 5 (List.replicate 8 0), 1#12, by decide +kernel⟩

/-- R309, R310: the rewarded sequences of other homes count toward MIN_SEQ at the coordinator. -/
theorem test_learning_jobwide : phaseOf (takeLearning oprJ { rewarded := [(0, 1)] }) 0 = .learning := by decide +kernel

theorem witness_StatusQueriesComplete_1 :
  ∃ (s : State) (m : Msg) (x : Conn), Accepted s tStatus m x ∧ (((connTenant x).isNone = true ∨ fieldAt m.body 0 2 ∈
    [1, 2, 4])) ∧ fieldAt m.body 0 2 = 1 ∧ zeroAt m.body 2 30 = true :=
  ⟨oprJ, sts 1, oconn, by decide +kernel⟩

theorem witness_StatusQueriesComplete_2 :
  ∃ (s : State) (m : Msg) (x : Conn), Accepted s tStatus m x ∧ (((connTenant x).isNone = true ∨ fieldAt m.body 0 2 ∈
    [1, 2, 4])) ∧ fieldAt m.body 0 2 = 2 ∧ zeroAt m.body 4 28 = true ∧ (planInst s (fieldAt m.body 2 2)).isSome = true :=
  ⟨oprJ, sts 2, oconn, by decide +kernel⟩

theorem witness_StatusQueriesComplete_3 :
  ∃ (s : State) (m : Msg) (x : Conn), Accepted s tStatus m x ∧ (((connTenant x).isNone = true ∨ fieldAt m.body 0 2 ∈
    [1, 2, 4])) ∧ fieldAt m.body 0 2 = 3 ∧ zeroAt m.body 2 30 = true :=
  ⟨oprJ, sts 3, oconn, by decide +kernel⟩

theorem witness_StatusQueriesComplete_4 :
  ∃ (s : State) (m : Msg) (x : Conn), Accepted s tStatus m x ∧ (((connTenant x).isNone = true ∨ fieldAt m.body 0 2 ∈
    [1, 2, 4])) ∧ fieldAt m.body 0 2 = 4 ∧ zeroAt m.body 4 28 = true ∧ (planInst s (fieldAt m.body 2 2)).isSome = true :=
  ⟨cli, sts 4, tconn, by decide +kernel⟩

theorem witness_StatusQueriesComplete_5 :
  ∃ (s : State) (m : Msg) (x : Conn), Accepted s tStatus m x ∧ (((connTenant x).isNone = true ∨ fieldAt m.body 0 2 ∈
    [1, 2, 4])) ∧ fieldAt m.body 0 2 = 5 ∧ refLen m 8 ≠ 0 ∧ zeroAt m.body 2 6 = true ∧ zeroAt m.body 28 4 = true :=
  ⟨oprJ, msg 5 (bytesOf 32 [(0, 2, 5), (16, 8, 64)]), oconn, by decide +kernel⟩

theorem witness_StatusQueriesComplete_6 :
  ∃ (s : State) (m : Msg) (x : Conn), Accepted s tStatus m x ∧ (((connTenant x).isNone = true ∨ fieldAt m.body 0 2 ∈
    [1, 2, 4])) ∧ fieldAt m.body 0 2 = 6 ∧ zeroAt m.body 2 30 = true :=
  ⟨oprJ, sts 6, oconn, by decide +kernel⟩

theorem witness_StatusQueriesComplete_7 :
  ∃ (s : State) (m : Msg) (x : Conn), Accepted s tStatus m x ∧ (((connTenant x).isNone = true ∨ fieldAt m.body 0 2 ∈
    [1, 2, 4])) ∧ fieldAt m.body 0 2 = 7 ∧ zeroAt m.body 2 30 = true :=
  ⟨oprJ, sts 7, oconn, by decide +kernel⟩

theorem witness_StatusQueriesComplete_8 :
  ∃ (s : State) (m : Msg) (x : Conn), Accepted s tStatus m x ∧ (((connTenant x).isNone = true ∨ fieldAt m.body 0 2 ∈
    [1, 2, 4])) ∧ fieldAt m.body 0 2 = 8 ∧ zeroAt m.body 5 27 = true ∧ fieldAt m.body 2 1 ≤ 7 ∧ fieldAt m.body 3 2 <
    kindCount (fieldAt m.body 2 1) ∧ pendHas s.dev.pend (fieldAt m.body 2 1) (fieldAt m.body 3 2) = true :=
  ⟨{ opr with dev := { opr.dev with pend := { channels := 0x101 } } }, msg 5 (bytesOf 32 [(0, 2, 8), (2, 1, 1), (3, 2,
    8)]), oconn, by decide +kernel⟩

theorem witness_StatusQueriesComplete_9 :
  ∃ (s : State) (m : Msg) (x : Conn), Accepted s tStatus m x ∧ (((connTenant x).isNone = true ∨ fieldAt m.body 0 2 ∈
    [1, 2, 4])) ∧ fieldAt m.body 0 2 = 9 ∧ zeroAt m.body 2 30 = true :=
  ⟨oprJ, sts 9, oconn, by decide +kernel⟩

def frw (l : Link) : State := { svc with links := [(3, l)] }
def lup : Link := { state := .up, lanes := 0xFF, gen := 2, rxNext := 7, txNext := 9, replay := [(6, [1]), (8, [2])], peer := some 4 }
theorem crc64_lt (l : List Byte) : crc64 l < 2^64 := by
  have byte : ∀ (k : List Nat) (c : Nat), c < 2^64 → k.foldl (fun (c : Nat) (_ : Nat) =>
      if c / 2^63 % 2 = 1 then ((c * 2) % 2^64) ^^^ 0x42F0E1EBA9EA3693 else (c * 2) % 2^64) c < 2^64 := by
    intro k
    induction k with
    | nil => exact fun c h => h
    | cons _ t ih =>
      intro c _
      refine ih _ ?_
      show (if c / 2^63 % 2 = 1 then ((c * 2) % 2^64) ^^^ 0x42F0E1EBA9EA3693 else (c * 2) % 2^64) < 2^64
      split
      · exact Nat.xor_lt_two_pow (Nat.mod_lt _ (by omega)) (by omega)
      · exact Nat.mod_lt _ (by omega)
  unfold crc64
  suffices h : ∀ c, c < 2^64 → l.foldl (fun c b => (List.range 8).foldl (fun c _ =>
      if c / 2^63 % 2 = 1 then ((c * 2) % 2^64) ^^^ 0x42F0E1EBA9EA3693 else (c * 2) % 2^64) (c ^^^ (b.toNat * 2^56))) c < 2^64 from
    h 0 (by omega)
  induction l with
  | nil => exact fun c h => h
  | cons b t ih =>
    exact fun c h => ih _ (byte _ _ (Nat.xor_lt_two_pow h (by have := b.isLt; omega)))

theorem leNat_le8 (n : Nat) (h : n < 2^64) : leNat (leBytes 8 n) = n := by
  simp only [leBytes, leNat, BitVec.toNat_ofNat]
  omega

theorem crc64_zeros (n : Nat) : crc64 (List.replicate n 0#8) = 0 := by
  unfold crc64
  induction n with
  | zero => rfl
  | succ n ih =>
    have z : (List.range 8).foldl (fun c _ =>
        if c / 2^63 % 2 = 1 then ((c * 2) % 2^64) ^^^ 0x42F0E1EBA9EA3693 else (c * 2) % 2^64) (0 ^^^ (0#8).toNat * 2^56) = 0 := by
      decide
    rw [List.replicate_succ, List.foldl_cons, z, ih]

/-- What is sent carries its own checksum. -/
theorem flit_good (seq kind ack cls : Nat) (p : List Byte) :
    (flitBytes seq kind ack cls p).length = 512
    ∧ fieldAt (flitBytes seq kind ack cls p) 504 8 = crc64 ((flitBytes seq kind ack cls p).take 504) := by
  have e : ∀ b : List Byte, b.length = 504 → (b ++ leBytes 8 (crc64 b)).length = 512
      ∧ fieldAt (b ++ leBytes 8 (crc64 b)) 504 8 = crc64 ((b ++ leBytes 8 (crc64 b)).take 504) := fun b h => by
    refine ⟨by rw [List.length_append, h]; simp only [leBytes, List.length_cons, List.length_nil], ?_⟩
    rw [fieldAt, ← h, List.drop_left, List.take_left]
    exact leNat_le8 _ (crc64_lt _)
  refine e _ ?_
  simp only [List.length_append, List.length_take, List.length_replicate, leBytes, List.length_cons, List.length_nil]
  omega

def badFlit : List Byte := List.replicate 504 0#8 ++ leBytes 8 1
theorem flit_bad : badFlit.length = 512 ∧ fieldAt badFlit 504 8 ≠ crc64 (badFlit.take 504) := by
  refine ⟨by simp only [badFlit, leBytes, List.length_append, List.length_replicate, List.length_cons, List.length_nil], ?_⟩
  rw [fieldAt, badFlit, List.drop_left' List.length_replicate, List.take_left' List.length_replicate, crc64_zeros]
  decide

/-- A heartbeat in state ECLIPSE that acknowledges flit 6. -/
def hb (n : Nat) : Flit := ⟨flitBytes n 2 6 2 (leBytes 8 0 ++ leBytes 2 5 ++ [5, 9, 4]), none⟩
def eth3 (l : List Nat) : State := { svc with eth := [(3, { mode := 1, up := true, fails := l })] }
def pci2 (p : PciPort) : State := { thr1 with pci := [(2, p)], nwt := { nvmeCopy := [(3, copy0)] } }
def i3c : State := { svc with mgt := { i3cDa := 9 } }
def stg : Session := ⟨.pldm, [], none⟩
/-- A start in which every unit passes. -/
def env0 : StartEnv := ⟨true, 0xF, true, true, true, 0, 0, 0, 0, 0, 0, [], 250⟩
def unconf : State := { svc with dev := { svc.dev with image := { confirmed := false, svnActive := 3, svnFallback := 2 } }, pst := { up := 900 * 10^9 } }

theorem witness_FurrowLinkComplete_1 :
  ∃ (s : State) (g : PortIx) (f : Flit), s.on = true ∧ linkRuns (s.link g) = true ∧ f.bytes.length = 512 ∧ fieldAt
    f.bytes 504 8 ≠ crc64 (f.bytes.take 504) :=
  ⟨frw lup, 3, ⟨badFlit, none⟩, by decide +kernel, by decide +kernel, flit_bad.1, flit_bad.2⟩

theorem witness_FurrowLinkComplete_2 :
  ∃ (s : State) (g : PortIx) (f : Flit), s.on = true ∧ linkRuns (s.link g) = true ∧ f.bytes.length = 512 ∧ fieldAt
    f.bytes 504 8 = crc64 (f.bytes.take 504) ∧ fieldAt f.bytes 3 1 ≠ 3 ∧ fieldAt f.bytes 0 3 = (s.link g).rxNext :=
  ⟨frw lup, 3, hb 7, by decide +kernel, by decide +kernel, (flit_good ..).1, (flit_good ..).2, by decide +kernel⟩

theorem witness_FurrowLinkComplete_3 :
  ∃ (s : State) (g : PortIx) (f : Flit), s.on = true ∧ linkRuns (s.link g) = true ∧ f.bytes.length = 512 ∧ fieldAt
    f.bytes 504 8 = crc64 (f.bytes.take 504) ∧ fieldAt f.bytes 3 1 ≠ 3 ∧ fieldAt f.bytes 0 3 ≠ (s.link g).rxNext ∧
    behind24 (fieldAt f.bytes 0 3) (s.link g).rxNext ≤ 2^22 :=
  ⟨frw lup, 3, hb 6, by decide +kernel, by decide +kernel, (flit_good ..).1, (flit_good ..).2, by decide +kernel⟩

theorem witness_FurrowLinkComplete_4 :
  ∃ (s : State) (g : PortIx) (f : Flit), s.on = true ∧ linkRuns (s.link g) = true ∧ f.bytes.length = 512 ∧ fieldAt
    f.bytes 504 8 = crc64 (f.bytes.take 504) ∧ fieldAt f.bytes 3 1 ≠ 3 ∧ fieldAt f.bytes 0 3 ≠ (s.link g).rxNext ∧ 2^22
    < behind24 (fieldAt f.bytes 0 3) (s.link g).rxNext :=
  ⟨frw lup, 3, hb 8, by decide +kernel, by decide +kernel, (flit_good ..).1, (flit_good ..).2, by decide +kernel⟩

theorem witness_FurrowLinkComplete_5 :
  ∃ (s : State) (g : PortIx), ∃ e, ∃ rest, s.on = true ∧ linkRuns (s.link g) = true ∧ (s.link g).replay = e :: rest ∧
    (s.link g).lastProgress + 2000 ≤ s.pst.up ∧ (s.link g).stuck < 15 :=
  ⟨frw lup, 3, (6, [1]), [(8, [2])], by decide +kernel⟩

theorem witness_FurrowLinkComplete_6 :
  ∃ (s : State) (g : PortIx), s.on = true ∧ linkRuns (s.link g) = true ∧ (s.link g).ackDue = true :=
  ⟨frw { lup with ackDue := true }, 3, by decide +kernel⟩

theorem witness_FurrowLinkComplete_7 :
  ∃ (s : State) (g lane : PortIx), s.on = true ∧ linkRuns (s.link g) = true ∧ (s.link g).lanes.getLsbD lane = true :=
  ⟨frw lup, 3, 7, by decide +kernel⟩

theorem witness_FurrowLinkComplete_8 :
  ∃ (s : State) (g : PortIx), s.on = true ∧ s.dev.started = true ∧ (s.link g).state = .down ∧ groupUsable s g = true ∧
    ((∀ a, (s.link g).lastFail = some a → a + 10^9 ≤ s.pst.up)) :=
  ⟨frw { lastFail := some (99 * 10^9) }, 3, by decide +kernel⟩

theorem witness_FurrowLinkComplete_9 :
  ∃ (s : State) (g : PortIx) (lanes : BitVec 8) (_far : Bool) (_peer : Fin 9), s.on = true ∧ (s.link g).state =
    .training ∧ 4 ≤ laneCount lanes ∧ s.pst.up ≤ (s.link g).trainedAt + 30 * 10^6 :=
  ⟨frw { lup with state := .training, trainedAt := 10^11 - 3 * 10^7 }, 3, 0xF0, false, 4, by decide +kernel⟩

theorem witness_FurrowLinkComplete_10 :
  ∃ (s : State) (g : PortIx) (lanes : BitVec 8) (_far : Bool) (_peer : Fin 9), s.on = true ∧ (s.link g).state =
    .training ∧ ((laneCount lanes < 4 ∨ (s.link g).trainedAt + 30 * 10^6 < s.pst.up)) :=
  ⟨frw { lup with state := .training, trainedAt := 10^11 - 3 * 10^7, fails := [10^11, 10^11] }, 3, 0x70, false, 4,
    by decide +kernel, by decide +kernel, Or.inl (by decide +kernel)⟩

theorem witness_FurrowLinkComplete_11 :
  ∃ (s : State) (g : PortIx) (f : Flit) (w : Nat × Nat × List Byte), s.on = true ∧ linkRuns (s.link g) = true
    ∧ f.bytes.length = 512 ∧ fieldAt f.bytes 504 8 = crc64 (f.bytes.take 504) ∧ fieldAt f.bytes 3 1 ≠ 3
    ∧ fieldAt f.bytes 0 3 = (s.link g).rxNext ∧ (s.link g).wait = [w] ∧ (s.link g).replay.length ≤ 4096
    ∧ ∃ e ∈ (s.link g).replay, behind24 e.1 (fieldAt f.bytes 4 3) < 2^23 :=
  ⟨frw { lup with wait := [(2, 2, [])] }, 3, hb 7, (2, 2, []), by decide +kernel, by decide +kernel, (flit_good ..).1,
    (flit_good ..).2, by decide +kernel⟩

theorem witness_PortsAndManagementComplete_1 :
  ∃ (s : State) (p : PortIx), s.on = true ∧ ethUsable s p = true :=
  ⟨{ svc with eth := [(3, { mode := 1 })] }, 3, by decide +kernel⟩

theorem witness_PortsAndManagementComplete_2 :
  ∃ (s : State) (p : PortIx), s.on = true ∧ (s.ethPort p).up = true :=
  ⟨eth3 [10^11, 10^11 - 5], 3, by decide +kernel⟩

theorem witness_PortsAndManagementComplete_3 :
  ∃ (s : State) (p : UnitIx) (l : Fin 2), s.on = true ∧ driveOn s p l = true :=
  ⟨pci2 { drive := [true, false], timeouts := [[10^11, 10^11], []] }, 2, 0, by decide +kernel⟩

theorem witness_PortsAndManagementComplete_4 :
  ∃ (s : State) (p : UnitIx) (l : Fin 2), s.on = true ∧ driveOn s p l = true :=
  ⟨pci2 { drive := [false, true] }, 2, 1, by decide +kernel⟩

theorem witness_PortsAndManagementComplete_5 :
  ∃ (s : State) (p : UnitIx), s.on = true ∧ (s.pciPort p).resetting = [true, false] :=
  ⟨pci2 { drive := [true, true], resetting := [true, false] }, 2, by decide +kernel⟩

theorem witness_PortsAndManagementComplete_6 :
  ∃ (s : State), s.on = true ∧ mgtAnswers s = true :=
  ⟨i3c, by decide +kernel⟩

theorem witness_PortsAndManagementComplete_7 :
  ∃ (s : State), s.on = true ∧ mgtAnswers s = true :=
  ⟨i3c, by decide +kernel⟩

theorem witness_PortsAndManagementComplete_8 :
  ∃ (s : State), s.on = true ∧ mgtAnswers s = true ∧ s.mgt.i3cDa ≠ 0 :=
  ⟨i3c, by decide +kernel⟩

theorem witness_PortsAndManagementComplete_9 :
  ∃ (s : State), ∃ smbus, s.on = true ∧ mgtAnswers s = true ∧ noImage s = false ∧ ((smbus = true ∨ s.mgt.i3cDa ≠ 0)) :=
  ⟨i3c, false, by decide +kernel⟩

theorem witness_PortsAndManagementComplete_10 :
  ∃ (s : State), ∃ smbus, s.on = true ∧ mgtAnswers s = true ∧ ((smbus = true ∨ s.mgt.i3cDa ≠ 0)) ∧ s.dev.session =
    none :=
  ⟨i3c, false, by decide +kernel⟩

theorem witness_PortsAndManagementComplete_11 :
  ∃ (s : State), s.on = true ∧ mgtAnswers s = true ∧ mayRestart s = true :=
  ⟨i3c, by decide +kernel⟩

theorem witness_PortsAndManagementComplete_12 :
  ∃ (s : State) (y : Session) (data : List Byte) (len : Nat), s.on = true ∧ mgtAnswers s = true ∧ s.wf = true ∧
    s.dev.session = some y ∧ y.path = .pldm ∧ y.pages = [] ∧ data.length = 4096 ∧ len % 4096 = 0 ∧ 8192 ≤ len ∧ len ≤
    2^26 :=
  ⟨{ i3c with dev := { i3c.dev with session := some stg } }, stg, List.replicate 4096 0, 8192, by decide +kernel⟩

theorem witness_PortsAndManagementComplete_13 :
  ∃ (s : State), s.on = true :=
  ⟨svc, by decide +kernel⟩

theorem witness_PortsAndManagementComplete_14 :
  ∃ (s : State), s.on = true :=
  ⟨svc, by decide +kernel⟩

theorem witness_StartAndConfirmComplete_1 :
  ∃ (s : State) (e : StartEnv), s.power.moduleEn = false ∧ s.on = false ∧ e.inRange = true :=
  ⟨{ svc with dev := { mode := .off }, power := { moduleEn := false } }, env0, by decide +kernel⟩

theorem witness_StartAndConfirmComplete_3 :
  ∃ (s : State) (_e : StartEnv) (a : Nat), s.on = true ∧ s.dev.restartAt = some a ∧ a ≤ s.pst.up :=
  ⟨{ svc with dev := { svc.dev with restartAt := some 5 } }, env0, 5, by decide +kernel⟩

theorem witness_StartAndConfirmComplete_4 :
  ∃ (s : State) (_ms : Nat), s.dev.mode = .boot ∧ s.dev.started = true ∧ computeMissing s = none ∧ dataPortUp s = true :=
  ⟨{ svc with dev := { svc.dev with mode := .boot }, eth := [(3, { mode := 1, up := true })] }, 250,
    by decide +kernel⟩

theorem witness_StartAndConfirmComplete_5 :
  ∃ (s : State) (_ms : Nat), s.dev.mode = .boot ∧ s.dev.started = true ∧ dataPortUp s = false ∧ 5 * 10^9 ≤ s.pst.up :=
  ⟨{ svc with dev := { svc.dev with mode := .boot } }, 0, by decide +kernel⟩

theorem witness_StartAndConfirmComplete_6 :
  ∃ (s : State), s.dev.mode = .failed ∧ s.dev.failedAt + 10 * 10^9 ≤ s.pst.up :=
  ⟨{ svc with dev := { svc.dev with mode := .failed } }, by decide +kernel⟩

theorem witness_StartAndConfirmComplete_7 :
  ∃ (s : State), s.dev.mode = .service ∧ s.dev.image.confirmed = false ∧ s.dev.nextConfirm.getD (s.dev.upAt + 300 *
    10^9) ≤ s.pst.up ∧ confirmPasses s = true :=
  ⟨unconf, by decide +kernel⟩

theorem witness_StartAndConfirmComplete_8 :
  ∃ (s : State), s.dev.mode = .service ∧ s.dev.image.confirmed = false ∧ s.dev.nextConfirm.getD (s.dev.upAt + 300 *
    10^9) ≤ s.pst.up ∧ confirmPasses s = false :=
  ⟨{ unconf with dev := { unconf.dev with internal := true } }, by decide +kernel⟩

theorem witness_StartAndConfirmComplete_9 :
  ∃ (s : State), s.dev.mode = .service ∧ s.dev.image.confirmed = false ∧ s.dev.upAt + 900 * 10^9 ≤ s.pst.up :=
  ⟨unconf, by decide +kernel⟩

/-! ### Ill-formed commands -/

theorem test_wf_misaligned_needs_misalignment : (Instr.misalignedRegAccess 0xF0000000004 4 false 0).wf = false := by decide

theorem test_wf_unassigned_outside_registers : (Instr.unassignedRegAccess 0x80000000000 false 0).wf = false := by decide

theorem test_wf_regWrite_misaligned : (Instr.regWrite 0xF0000000006 0).wf = false := by decide

theorem test_wf_counterLoRead_misaligned : (Instr.counterLoRead 0xF0000000001).wf = false := by decide

theorem test_wf_almWindowWrite_misaligned : (Instr.almWindowWrite 0xF0000000001 0).wf = false := by decide

theorem test_wf_constellation_record_length :
    (Instr.constellationComplete 0 (.tile (List.replicate 32 0)) 0 [none, some [0]]).wf = false := by decide

theorem test_wf_constellation_descriptor : (Instr.constellationComplete 0 (.stream [1]) 0 []).wf = false := by decide

theorem test_wf_reissue_page_length : (Instr.stepReissue 0 [(3, [0])]).wf = false := by decide

theorem test_wf_news_record_length : (Instr.stepBoundary { records := [(2, [0])] }).wf = false := by decide

theorem test_wf_refresh_line : (Instr.refresh 0 [(20971520, [(0, 1)])]).wf = false := by decide

theorem test_wf_refresh_symbol : (Instr.refresh 0 [(0, [(67, 1)])]).wf = false := by decide
theorem test_wf_scrub_symbol : (Instr.patrolScrub 0 [(67, 1)]).wf = false := by decide

theorem test_wf_stack_sensors : (Instr.stackTempSample 0 [some 40, none, some 41]).wf = false := by decide

theorem test_wf_poison_pages_distinct : (Instr.weightPoison 0 [3, 3] []).wf = false := by decide

theorem test_wf_turn_rooms_distinct : (Instr.turnStart 0 [⟨4, 10, 1⟩, ⟨4, 9, 1⟩] []).wf = false := by decide

theorem test_wf_shard_fingerprints : (Instr.shardArrive 0 3 0 ⟨0, 0, [1]⟩ [] []).wf = false := by decide

theorem test_wf_instanceClose_descriptor : (Instr.instanceClose 1 [⟨0, [1, 2], [], [], []⟩]).wf = false := by decide

theorem test_wf_collectiveDeadline_members :
    (Instr.collectiveDeadline 1 [⟨0, List.replicate 64 0, [], [], []⟩, ⟨0, List.replicate 64 0, [], [], []⟩]).wf = false := by
  decide

theorem test_wf_lateContribution_descriptor : (Instr.lateContribution 1 0 ⟨0, [], [], [], []⟩).wf = false := by decide

theorem test_wf_journal_header : (Instr.journalRecord 0 ⟨[], [], []⟩).wf = false := by decide

theorem test_wf_takeover_sessions : (Instr.takeover 0 [⟨7, 0, []⟩, ⟨7, 1, []⟩]).wf = false := by decide

theorem test_wf_message_body : (Instr.bye { msg 1 [1, 2] with bodyLen := 3 }).wf = false := by decide

theorem test_wf_flit_length : (Instr.flitReceive 0 ⟨[0], none⟩).wf = false := by decide

theorem test_wf_start_links :
    (Instr.moduleEnAssert ⟨true, 0xF, true, true, true, 0, 0, 0, 0, 0, 0, [], 0⟩).wf = false := by decide

theorem test_wf_warm_restart_links :
    (Instr.warmRestart ⟨true, 0xF, true, true, true, 0, 0, 0, 0, 0, 0, [], 0⟩).wf = false := by decide

theorem test_wf_firmware_chunk : (Instr.pldmFirmwareData 4096 [0, 1] 8192).wf = false := by decide

/-! ### Single steps: the values stand in the rules that are named -/

/-- R142: TLY.SET with ORD = 0 and SCOPE = 4, rs2 = x11, rs1 = x10, rd = x5; funct7 stands in bits 31:25. -/
theorem test_xkvl_word :
    decodeXkvl 0 7 9 0x20B5128B = some (.tlySet 0 ⟨0x10, 11, 10, 5⟩ 7 9) ∧ decodeXkvl 0 7 9 0x20B51293 = none
      ∧ encodeXkvl (.tlySet 0 ⟨0x10, 11, 10, 5⟩ 7 9) = some 0x20B5128B := by decide +kernel

/-- The command table gives no row bits. -/
theorem test_no_word_is_a_command : decodeTableWord 32 0 = none := by rfl

/-- R187: an addition is made modulo 2^32. -/
theorem test_tally_add_wraps :
    gives (step { tal with pending := [.tlyAdd 0 ⟨0, 0, 0, 0⟩ 5 0xFFFFFFFF, .mxeFlush 0], tallies := [(5, 3)] })
      (fun t => t.tally 5 == 2 && t.pending == [.mxeFlush 0]) = true := by decide +kernel

/-- R118: 1 + 3 = 4 and −2 + (−0) = −2 in FP32. -/
theorem test_vector_add :
    gives (exec (.add 0) (vx addDesc)) (fun t => t.bytes (S0 + 0x3000) 8 == leBytes 4 0x40800000 ++ leBytes 4 0xC0000000)
      = true := by decide +kernel

/-- The worked example after R31: the matrix engine registers of core 5.3. -/
theorem test_register_place : regOff .mxeCtrl 43 = 0x2560000 := by decide +kernel

/-- The worked example of the conversion pipeline (R98, R99): 2.56097412109375 to nearest, and by r = 52,000. -/
theorem test_conversion_example :
    (convFloat f12w none (.fin false 41959 (-14))).1 = 0x402 ∧ (convFloat f12w (some 52000) (.fin false 41959 (-14))).1 = 0x403 := by
  decide +kernel

/-- The worked example of R202 and R203: channel 37 mapped out, SHARE_MIB = 1,024. -/
def spread : State := { svc with dram := { svc.dram with live := (List.range 256).erase 37, shareMib := 1024 } }

theorem test_spread_address : spread.dramDecode 0x100000 = some (2, 4096) := by decide +kernel

theorem test_local_address : spread.dramDecode 0x41C0005000 = some (43, 1073741824) := by decide +kernel

/-- The worked example of a decode step (R121, R133): RMSINV over 12 rows of 6,144 from an empty queue, and SAMPLE. -/
theorem test_vector_cycles :
    vecCycles (vecD (bytesOf 32 [(0, 1, 0x23), (1, 1, 2), (2, 1, 3), (4, 3, 73728), (8, 2, 6144)])) true = 62
      ∧ sampleCycles (vecD (bytesOf 32 [(0, 1, 0x40), (3, 1, 1), (4, 3, 32768), (28, 4, 40)])) false false = 160 := by
  decide +kernel

/-- R497: one PCLK tick adds a nanosecond where nothing is steered. -/
theorem test_idle_tick : gives (step svc) (fun t => t.pst.up == 10^11 + 1 && t.pending == []) = true := by decide +kernel

/-- Numbers for the combines of R196: 1 and −2, a NaN, infinities of two signs, and zeros of two signs. -/
theorem witness_AtomicCombines :
    (0x3F800000 < 2^32 ∧ 0xC0000000 < 2^32)
      ∧ (FVal.add (fp32.decode 0x7F800000) (fp32.decode 0xFF800000)).rnd fp32 = .nan
      ∧ ((FVal.add (bf16.decode 0x3F80) (bf16.decode 0xC000)).rnd bf16).isInf = false
      ∧ (FVal.add (f12w.decode 0xFF7) (f12w.decode 0xFF7)).rnd f12w = .inf true
      ∧ (f12w.decode 0x7F8).isNan = true
      ∧ (fp32.decode 0xC0000000).isNan = false ∧ (fp32.decode 0xC0000000).lt (fp32.decode 0x3F800000) = true := by
  decide +kernel

end Sys2Proof.Tests
end

section
/-! SUPPORT. Little-endian fields, the bytes of an Almanac record, the register accesses that are turned away, the places
of the registers, and the state right after reset. -/

namespace Sys2Proof.Machine

/-! ### Little-endian fields (R5) -/

@[simp] theorem leBytes_length (n v : Nat) : (leBytes n v).length = n := by
  induction n generalizing v with
  | zero => rfl
  | succ n ih => simp [leBytes, ih]

/-- `n` little-endian bytes hold a number modulo 256^n. -/
@[simp] theorem leNat_leBytes (n v : Nat) : leNat (leBytes n v) = v % 256 ^ n := by
  induction n generalizing v with
  | zero => simp [leBytes, leNat, Nat.mod_one]
  | succ n ih =>
    rw [leBytes, leNat, ih, BitVec.toNat_ofNat, Nat.pow_succ' (m := 256), Nat.mod_mul]

theorem fieldAt_append_left (l m : List Byte) (off n : Nat) (h : off + n ≤ l.length) :
    fieldAt (l ++ m) off n = fieldAt l off n := by
  rw [fieldAt, fieldAt, List.drop_append_of_le_length (by omega),
    List.take_append_of_le_length (by rw [List.length_drop]; omega)]

theorem fieldAt_append_right (l m : List Byte) (off n : Nat) (h : l.length ≤ off) :
    fieldAt (l ++ m) off n = fieldAt m (off - l.length) n := by
  rw [fieldAt, fieldAt, List.drop_append, List.drop_eq_nil_of_le h, List.nil_append]

theorem fieldAt_leBytes (n v : Nat) : fieldAt (leBytes n v) 0 n = v % 256 ^ n := by
  rw [fieldAt, List.drop_zero, List.take_of_length_le (by simp), leNat_leBytes]

theorem fieldAt_take (l : List Byte) (k off n : Nat) (h : off + n ≤ k) : fieldAt (l.take k) off n = fieldAt l off n := by
  rw [fieldAt, fieldAt, List.drop_take, List.take_take, Nat.min_eq_left (by omega)]

/-! ### Reading back what was written -/

namespace Memory

@[simp] theorem read_length (d : Byte) (m : Memory) (a n : Nat) : (read d m a n).length = n := by
  induction n generalizing a with
  | zero => rfl
  | succ n ih => simp [read, ih]

theorem getElem_read (d : Byte) (m : Memory) (a n i : Nat) (h : i < (read d m a n).length) :
    (read d m a n)[i] = get d m (a + i) := by
  induction n generalizing a i with
  | zero => simp [read] at h
  | succ n ih =>
    cases i with
    | zero => rfl
    | succ i => simp only [read, List.getElem_cons_succ, ih, Nat.add_assoc, Nat.add_comm 1]

/-- The bytes just written read back. -/
theorem read_write_same (d : Byte) (m : Memory) (a : Nat) (l : List Byte) (h : wf d m = true) :
    read d (write d m a l) a l.length = l :=
  List.ext_getElem (by simp) fun i _ hi => by rw [getElem_read, get_write_inside d l m a i h hi]

end Memory

/-! ### The checksum (R212) -/

theorem crc32cByte_lt (c : Nat) (h : c < 2 ^ 32) : crc32cByte c < 2 ^ 32 := by
  refine List.foldlRecOn (motive := (· < 2 ^ 32)) _ _ h fun c hc _ _ => ?_
  split
  · exact Nat.xor_lt_two_pow (by omega) (by decide)
  · omega

theorem crc32c_lt (l : List Byte) : crc32c l < 2 ^ 32 := by
  refine Nat.xor_lt_two_pow (List.foldlRecOn (motive := (· < 2 ^ 32)) _ _ (by decide) fun c hc b _ => ?_) (by decide)
  exact crc32cByte_lt _ (Nat.xor_lt_two_pow hc (Nat.lt_trans b.isLt (by decide)))

/-- Bytes followed by their checksum. -/
theorem fieldAt_check (l : List Byte) (off : Nat) (h : l.length = off) :
    fieldAt (l ++ leBytes 4 (crc32c l)) off 4 = crc32c ((l ++ leBytes 4 (crc32c l)).take off) := by
  rw [fieldAt_append_right _ _ _ _ (Nat.le_of_eq h), h, Nat.sub_self, fieldAt_leBytes, List.take_left' h]
  exact Nat.mod_eq_of_lt (crc32c_lt l)

/-! ### The bytes of an Almanac record (R507) -/

namespace State

variable (s : State) (seq : Word) (r : AlmRec)

/-- A record's bytes hold nothing of the Almanac's own state but its SEQ. -/
@[simp] theorem almBytes_setAlm (a : Alm) : { s with alm := a }.almBytes seq r = s.almBytes seq r := rfl

@[simp] theorem almBytes_length : (s.almBytes seq r).length = 64 := by simp [almBytes]

/-- The fields of a record lie one after another in the order of R507's table. -/
theorem almBytes_seq : fieldAt (s.almBytes seq r) 0 4 = seq.toNat := by
  simp [almBytes, fieldAt_append_left, fieldAt_leBytes, Nat.mod_eq_of_lt seq.isLt]

theorem almBytes_code : fieldAt (s.almBytes seq r) 4 2 = r.code % 256 ^ 2 := by
  simp [almBytes, fieldAt_append_left, fieldAt_append_right, fieldAt_leBytes]

theorem almBytes_time : fieldAt (s.almBytes seq r) 8 8 = s.pst.now % 256 ^ 8 := by
  simp [almBytes, fieldAt_append_left, fieldAt_append_right, fieldAt_leBytes]

/-- Bytes 24 to 59 hold the record's data. -/
theorem almBytes_data (off n : Nat) (h : off + n ≤ r.data.length) (h36 : off + n ≤ 36) :
    fieldAt (s.almBytes seq r) (24 + off) n = fieldAt r.data off n := by
  unfold almBytes
  dsimp only
  rw [fieldAt_append_left _ _ _ _ (by simp; omega), fieldAt_append_right _ _ _ _ (by simp),
    fieldAt_take _ _ _ _ (by simpa using h36), fieldAt_append_left _ _ _ _ (by simpa using h)]
  simp

/-- Bytes 60 to 63 hold the checksum of the bytes before them. -/
theorem almBytes_check : fieldAt (s.almBytes seq r) 60 4 = crc32c ((s.almBytes seq r).take 60) :=
  fieldAt_check _ _ (by simp)

/-! ### A record that is written at once (R507, R509) -/

/-- Where the Almanac writes, a record whose code is not pinned takes the next SEQ and the place of that SEQ in the event
ring, and nothing else of the Almanac changes. -/
theorem almWrite_unpinned_alm (hready : s.alm.ready = true) (hstop : s.alm.stopped = false)
    (hpin : almPinned r.code = false) :
    (s.almWrite r).alm = { s.alm with
      mram := Memory.write 0 s.alm.mram (0x080000 + 64 * (s.alm.next.toNat % 131072)) (s.almBytes s.alm.next r)
      next := s.alm.next + 1 } := by
  simp [almWrite, hready, hstop, hpin]

theorem send_local (o : Out) (h : o.toPeer = false) : s.send o = { s with out := o :: s.out } := by
  rw [send_frame, send_out_local s o h]

/-- The record of an access sends nothing. -/
theorem recordAccess_setOut (a w v : Nat) : { s.recordAccess a w v with out := s.out } = s.recordAccess a w v := by
  rw [recordAccess_frame]

/-- A record, merged or written, changes no register but the count of merged ones. -/
theorem record_sameRegsBut (code block unit : Nat) (data : List Byte) (flags : Nat) :
    SameRegsBut s (s.record code block unit data flags) [regOff .almMerged] := by
  intro id i ix hne
  unfold record
  split
  · simp [reg]
  · split
    next l _ => exact reg_setReg_ne _ _ _ _ _ _ _ _ (by simpa using hne)
    next => simp [reg]

/-- A record of a combination that this second has not seen yet is written. -/
theorem record_of_merges_nil (code block unit : Nat) (data : List Byte) (flags : Nat) (hm : s.alm.merges = []) :
    ∃ l, s.record code block unit data flags
      = { s with alm := { s.alm with merges := l } }.almWrite ⟨code, flags, block, unit, data⟩ := by
  unfold record
  split
  · exact ⟨s.alm.merges, rfl⟩
  · exact ⟨_, by rw [hm]; rfl⟩

/-- Such a record takes the next SEQ, and its 64 bytes stand in the event ring. -/
theorem record_of_merges_nil_stands (code block unit : Nat) (data : List Byte) (flags : Nat) (hready : s.alm.ready = true)
    (hstop : s.alm.stopped = false) (hm : s.alm.merges = []) (hw : Memory.wf 0 s.alm.mram = true)
    (hpin : almPinned code = false) :
    (s.record code block unit data flags).alm.next = s.alm.next + 1
      ∧ Memory.read 0 (s.record code block unit data flags).alm.mram (0x080000 + 64 * (s.alm.next.toNat % 131072)) 64
        = s.almBytes s.alm.next ⟨code, flags, block, unit, data⟩ := by
  obtain ⟨l, hl⟩ := s.record_of_merges_nil code block unit data flags hm
  rw [hl, almWrite_unpinned_alm { s with alm := { s.alm with merges := l } } _ hready hstop hpin]
  refine ⟨rfl, ?_⟩
  simpa only [almBytes_length, almBytes_setAlm] using
    Memory.read_write_same 0 s.alm.mram _ (s.almBytes s.alm.next ⟨code, flags, block, unit, data⟩) hw

end State

/-! ### Accesses that are turned away (R4, R30) -/

/-- An address of the register region gives the offset in it. -/
theorem regionOf_regs (a off : Nat) (h : regionOf a = .regs off) : off = a % 2 ^ 32 := by
  unfold regionOf at h
  repeat' split at h
  all_goals cases h
  rfl

/-- The data of a REG_ACCESS record (R508): the address, the width and the value written. -/
def accessData (addr width val : Nat) : List Byte := leBytes 8 addr ++ leBytes 1 width ++ leBytes 4 val

theorem recordAccess_eq (s : State) (addr width val : Nat) :
    s.recordAccess addr width val
      = s.record 0x0001 (addr % 2 ^ 32 / 2 ^ 24) (State.accessUnit (addr % 2 ^ 32)) (accessData addr width val) := rfl

theorem accessData_fields (addr width val : Nat) :
    fieldAt (accessData addr width val) 0 8 = addr % 256 ^ 8 ∧ fieldAt (accessData addr width val) 8 1 = width % 256
      ∧ fieldAt (accessData addr width val) 9 4 = val % 256 ^ 4 := by
  simp [accessData, fieldAt_append_left, fieldAt_append_right, fieldAt_leBytes]

/-- R507, R508: the record of an access of a combination that is new in this second stands in the event ring. -/
theorem recordAccess_stands (s : State) (addr width w : Nat) (ha : addr < 2 ^ 64) (hv : w < 2 ^ 32)
    (hready : s.alm.ready = true) (hstop : s.alm.stopped = false) (hm : s.alm.merges = [])
    (hw : Memory.wf 0 s.alm.mram = true) :
    (s.recordAccess addr width w).alm.next = s.alm.next + 1
      ∧ ∀ r, r = Memory.read 0 (s.recordAccess addr width w).alm.mram (0x080000 + 64 * (s.alm.next.toNat % 131072)) 64 →
        fieldAt r 0 4 = s.alm.next.toNat ∧ fieldAt r 4 2 = 0x0001 ∧ fieldAt r 8 8 = s.pst.now % 2 ^ 64
          ∧ fieldAt r 24 8 = addr ∧ fieldAt r 32 1 = width % 256 ∧ fieldAt r 33 4 = w
          ∧ fieldAt r 60 4 = crc32c (r.take 60) := by
  rw [recordAccess_eq]
  obtain ⟨hnext, hread⟩ := s.record_of_merges_nil_stands 0x0001 (addr % 2 ^ 32 / 2 ^ 24) (State.accessUnit (addr % 2 ^ 32))
    (accessData addr width w) 0 hready hstop hm hw (by decide)
  obtain ⟨haddr, hwidth, hval⟩ := accessData_fields addr width w
  refine ⟨hnext, fun r hr => ?_⟩
  rw [hread] at hr
  subst hr
  have hdata (off n : Nat) (h : off + n ≤ 13) :=
    s.almBytes_data s.alm.next ⟨0x0001, 0, addr % 2 ^ 32 / 2 ^ 24, State.accessUnit (addr % 2 ^ 32),
      accessData addr width w⟩ off n h (by omega)
  refine ⟨s.almBytes_seq _ _, s.almBytes_code _ _, s.almBytes_time _ _, ?_, ?_, ?_, s.almBytes_check _ _⟩
  · exact (hdata 0 8 (by decide)).trans (haddr.trans (Nat.mod_eq_of_lt ha))
  · exact (hdata 8 1 (by decide)).trans hwidth
  · exact (hdata 9 4 (by decide)).trans (hval.trans (Nat.mod_eq_of_lt hv))

/-- An access whose only effects are its record and the 0 that a read drives is turned away. -/
theorem recordAccess_turnedAway (s : State) (addr width val : Nat) (wr : Bool) (ha : addr < 2 ^ 64) :
    TurnedAway s
      { s.recordAccess addr width (if wr then val % 2 ^ 32 else 0) with out := if wr then s.out else .bus 0 :: s.out }
      addr width wr val := by
  have hv : (if wr then val % 2 ^ 32 else 0) < 2 ^ 32 := by
    split
    · exact Nat.mod_lt _ (by decide)
    · decide
  exact ⟨s.record_sameRegsBut _ _ _ _ _, sameMap_of _ _ (s.recordAccess_mem _ _ _) (s.recordAccess_clusters _ _ _)
    (s.recordAccess_poison _ _ _), s.recordAccess_cores _ _ _, s.recordAccess_tallies _ _ _, rfl,
    recordAccess_stands s addr width _ ha hv⟩

/-- R4: an access of another width or alignment is recorded, and a read of it returns 0. -/
theorem regAccess_misaligned (s : State) (addr width : Nat) (wr : Bool) (val : DWord)
    (h : width ≠ 4 ∨ addr % 2 ^ 32 % 4 ≠ 0) :
    regAccess s addr width wr val
      = ⟨s.recordAccess addr width (if wr then (val.setWidth 32 : Word).toNat else 0), 0⟩ := by
  unfold regAccess
  rw [if_pos h]

/-- R30: an access to an unassigned address is recorded, and a read of it returns 0. -/
theorem regAccess_unassigned (s : State) (addr : Nat) (wr : Bool) (val : DWord) (h : addr % 2 ^ 32 % 4 = 0)
    (hwin : inAlmWindow (addr % 2 ^ 32) = false) (hnone : findReg (addr % 2 ^ 32) = none) :
    regAccess s addr 4 wr val
      = ⟨s.recordAccess addr 4 (if wr then (val.setWidth 32 : Word).toNat else 0), 0⟩ := by
  unfold regAccess
  simp only [h, hwin, hnone, ne_eq, not_true_eq_false, or_self, Bool.false_eq_true, if_false]

/-- An access from the bus that the register region answers with a record and 0 is turned away; of the data written only
the low 32 bits count. -/
theorem busAccess_turnedAway (s : State) (addr : BitVec 44) (off width val : Nat) (wr : Bool) (data : DWord)
    (hreg : regionOf addr.toNat = .regs off) (hval : (data.setWidth 32 : Word).toNat = val % 2 ^ 32)
    (h : regAccess s addr.toNat width wr data
      = ⟨s.recordAccess addr.toNat width (if wr then (data.setWidth 32 : Word).toNat else 0), 0⟩) :
    TurnedAway s (busAccess s addr.toNat width wr data) addr.toNat width wr val := by
  have heq : busAccess s addr.toNat width wr data
      = { s.recordAccess addr.toNat width (if wr then val % 2 ^ 32 else 0) with
          out := if wr then s.out else .bus 0 :: s.out } := by
    simp only [busAccess, hreg, h, hval]
    cases wr
    case false => exact (State.send_local _ _ rfl).trans (by rw [State.recordAccess_out]; rfl)
    case true => exact (State.recordAccess_setOut _ _ _ _).symm
  rw [heq]
  exact recordAccess_turnedAway s addr.toNat width val wr (Nat.lt_trans addr.isLt (by decide))

/-! ### The offsets of registers (R4) -/

/-- Each register table gives its base and its strides as multiples of 4. -/
theorem RegId.spec_aligned (id : RegId) : id.spec.base % 4 = 0 ∧ ∀ d ∈ id.spec.dims, d.2 % 4 = 0 := by
  cases id <;> decide

/-- Indices stride over multiples of 4. -/
theorem four_dvd_sum_strides (dims : List (Nat × Nat)) (ix : List Nat) (h : ∀ d ∈ dims, d.2 % 4 = 0) :
    4 ∣ ((dims.zip ix).map fun p => p.1.2 * p.2).sum := by
  induction dims generalizing ix with
  | nil => exact Nat.dvd_zero 4
  | cons d ds ih =>
    cases ix with
    | nil => exact Nat.dvd_zero 4
    | cons i is =>
      have hd : 4 ∣ d.2 := Nat.dvd_of_mod_eq_zero (h d List.mem_cons_self)
      rw [List.zip_cons_cons, List.map_cons, List.sum_cons]
      exact Nat.dvd_add (Nat.dvd_mul_right_of_dvd hd i) (ih is fun e he => h e (List.mem_cons_of_mem d he))

/-- R4: every register lies at a multiple of 4 bytes. -/
theorem RegRef.off_aligned (r : RegRef) : r.off % 4 = 0 := by
  obtain ⟨hbase, hdims⟩ := r.id.spec_aligned
  refine Nat.mod_eq_zero_of_dvd (Nat.dvd_add (Nat.dvd_add (Nat.dvd_add
    (Nat.dvd_mul_left_of_dvd (by decide) _) ?_) (Nat.dvd_of_mod_eq_zero hbase)) (four_dvd_sum_strides _ _ hdims))
  split
  · exact Nat.dvd_mul_left_of_dvd (by decide) _
  · exact Nat.dvd_mul_left_of_dvd (by decide) _
  · exact Nat.dvd_zero 4

/-! ### The state right after reset (R8, R476) -/

namespace State

/-- No byte of the map holds anything, and no cache part is undefined yet. -/
theorem reset_byte (a : Nat) : reset.byte a = 0 := by
  have hveil : reset.cacheVeil a = 0 := by
    unfold cacheVeil
    split <;> rfl
  rw [byte, hveil]
  exact BitVec.xor_zero

end State
end Sys2Proof.Machine

open Sys2Proof Sys2Proof.Machine

/-- Settles O8: the canonical forms of the memories are evaluated, of which only the Almanac's header lists a byte. -/
theorem resetState : Obligations.ResetState := by
  have hwf : State.reset.wf = true := by decide
  exact ⟨rfl, rfl, rfl, rfl, fun _ _ _ => rfl, State.reset_byte, rfl, fun _ => rfl, rfl, rfl, rfl, hwf, rfl⟩

/-- Settles O31: either access is answered with its record and 0, so it is turned away; the tables give every register an
aligned place. -/
theorem turnedAwayAccessesComplete : Obligations.TurnedAwayAccessesComplete := by
  intro s addr off width wr val hon hreg
  have hoff := regionOf_regs _ _ hreg
  subst hoff
  refine ⟨fun hmis => ⟨_, powered_next _ _ hon, ?_⟩, fun hal hwin hnone => ⟨_, powered_next _ _ hon, ?_⟩,
    RegRef.off_aligned⟩
  · exact busAccess_turnedAway _ _ _ _ _ _ _ hreg (BitVec.toNat_setWidth ..) (regAccess_misaligned _ _ _ _ _ hmis)
  · have hval : (((val.setWidth 32 : Word).setWidth 64 : DWord).setWidth 32 : Word).toNat = val.toNat % 2 ^ 32 := by
      simp
    exact busAccess_turnedAway _ _ _ _ _ _ _ hreg hval (regAccess_unassigned _ _ _ _ hal hwin hnone)

end

section
/-! SUPPORT. A state in which a second EGRESS descriptor stands behind a halted one, against the EGRESS clause of
`Obligations.LocalStreamsComplete`. -/

namespace Sys2Proof.Machine

/-- An EGRESS of one row of 64 bytes to a DST (R152). -/
def egressDesc (dst : Nat) : List Byte :=
  leBytes 12 3 ++ leBytes 4 64 ++ leBytes 8 0 ++ leBytes 8 dst ++ leBytes 4 1 ++ leBytes 4 1 ++ leBytes 8 0 ++ leBytes 4 64
    ++ leBytes 12 0

/-- A row of the output pipeline. -/
def oneEgressRow : EgressRow := ⟨List.replicate 64 7, []⟩

/-- The descriptor of the second EGRESS: to 0x3000 of the core's own scratchpad. -/
def localEgress : TileIns := ⟨egressDesc (2 ^ 63 + 0x3000), 1, false, 1⟩

/-- Unit 0 of core 0 holds one row in its egress queue and two EGRESS descriptors: the first to the virtual address
0x10000, which no table maps, the second to the scratchpad. Translation is enabled. -/
def egressPair : State :=
  { dev := { mode := .service, started := true, module := some 0, noPosition := false }
    dram := { live := [0] }
    regs := [(regOff .xltCtrl 0, 1)]
    issue := 2
    cores := [(0, { str := [
      { queue := [⟨egressDesc 0x10000, 0, false, 0⟩, localEgress], egress := [oneEgressRow], seq := 2 }, {}, {}, {}] })] }

/-- The same once the unit has started the first descriptor. -/
def egressStalled : State := strCmd egressPair 0 0 3

/-- One command leads from two queued descriptors to the stalled state. -/
theorem exec_egress_egressPair : exec (.egress 0 0) egressPair = .next egressStalled := powered_next _ _ rfl

/-- R160, R161: the first descriptor met a translation fault and halted, with its row still in the egress queue; it
started before any run that starts now, so the row is its own (R153). -/
theorem egressStalled_owed :
    ((egressStalled.str 0 0).active.filterMap id).map (fun r => (r.halted, r.born)) = [(some 1, 2)]
      ∧ egressStalled.issue = 3 ∧ (egressStalled.str 0 0).egress = [oneEgressRow] := by
  decide +kernel

/-- A halted run does not count among the runs that the unit goes on with, so the second descriptor counts as ready. -/
theorem egressStalled_strReady : StrReady egressStalled 0 0 localEgress [] := by decide +kernel

/-- The second descriptor passes the checks of R154. -/
theorem egressStalled_check : strCheck egressStalled 0 0 (strD localEgress.desc) false = none := by decide +kernel

/-- The second descriptor is a plain EGRESS of one row, of the length that waits, to the scratchpad. -/
theorem localEgress_fields :
    (strD localEgress.desc).opcode = 3 ∧ (strD localEgress.desc).persistent = false
      ∧ isLocal (strD localEgress.desc).dst = true ∧ (strD localEgress.desc).n1 = 1 ∧ (strD localEgress.desc).n2 = 1
      ∧ (strD localEgress.desc).resOff = 0
      ∧ ceilDiv oneEgressRow.bytes.length 64 = (strD localEgress.desc).rowLen / 64
      ∧ scratchAddr 0 0x3000 = scratchAddr 0 (bits (strD localEgress.desc).dst 22 0) := by
  decide +kernel

/-- The destination lies below the next completion slot. -/
theorem localEgress_below_cplSlot :
    scratchAddr 0 0x3000 + (strD localEgress.desc).rowLen
      ≤ egressStalled.cplSlot (.str (0 : CoreIx) (0 : UnitIx))
        ((egressStalled.str (0 : CoreIx) (0 : UnitIx)).tail.toNat % 16) := by
  decide +kernel

/-- R153: the row belongs to the halted run, so the second descriptor waits and the row stays. -/
theorem egressStalled_waits : ((strCmd egressStalled 0 0 3).str 0 0).egress = [oneEgressRow] := by decide +kernel

end Sys2Proof.Machine

open Sys2Proof Sys2Proof.Machine

/-- Refutes O26: the EGRESS clause fails where an earlier EGRESS of the unit is halted at a translation fault. `StrReady`
asks only that no run of the opcode goes on, a halted run still owes its row, and the new descriptor waits for it. -/
theorem not_localStreamsComplete : ¬ Obligations.LocalStreamsComplete := by
  rintro ⟨-, -, hegress, -, -⟩
  obtain ⟨hop, hpers, hlocal, hn1, hn2, hoff, hlen, hdst⟩ := localEgress_fields
  obtain ⟨-, -, hqueue⟩ := egressStalled_owed
  obtain ⟨t, hexec, -, hpop, -, -⟩ := hegress egressStalled 0 0 localEgress [] (strD localEgress.desc) oneEgressRow []
    (scratchAddr 0 0x3000) _
    egressStalled_strReady rfl hop egressStalled_check hpers hlocal hn1 hn2 hoff hqueue hlen rfl hdst rfl
    (.inl localEgress_below_cplSlot)
  obtain ⟨⟨hon, -⟩, -⟩ := egressStalled_strReady
  have hstep : exec (.egress 0 0) egressStalled = .next (strCmd egressStalled 0 0 3) := powered_next _ _ hon
  obtain rfl : strCmd egressStalled 0 0 3 = t := Host.Outcome.next.inj (hstep.symm.trans hexec)
  exact List.cons_ne_nil _ _ (egressStalled_waits.symm.trans hpop)

end
